-- ==== Sys2Proof/Word.lean ====
section
/-! DEFINITION. The units of data of the block: the byte and the byte sequence (00_scope.md R10, R11). -/

namespace Sys2Proof

/-- A byte: 8 bits, bit 7 the most significant, always unsigned (R10). -/
abbrev Byte := BitVec 8

/-- A byte sequence; index 0 is the first byte sent or received (R11, R32). -/
abbrev Bytes := List Byte

end Sys2Proof
end

