-- ==== Sys2Proof/Config.lean ====
section
/-! DEFINITION. The fixed parameters of the block (00_scope.md R6), each a named constant, and the command ids of
the catalog (30_encoding.md R52). None of them is state (10_state.md R23). UNVERIFIED: the spec says that the
literals are unaudited and normative (notes/assumptions/10.md). The widths are also the widths of the types below: a
field of the frame is one byte because its width is 8 (R47). -/

namespace Sys2Proof.Config

/-- `CRC_WIDTH`: width of the CRC register and checksum, bits. -/
abbrev crcWidth : Nat := 8
/-- `CRC_POLY`: the generator polynomial in normal form, x^8 implicit (R60). -/
def crcPoly : BitVec crcWidth := 0xEB
/-- `CRC_INIT`: the initial register value. -/
def crcInit : BitVec crcWidth := 0x00
/-- `CRC_REFIN`: input bytes are not reflected; the byte step is MSB first (R34, R61). -/
def crcRefIn : Bool := false
/-- `CRC_REFOUT`: the result is not reflected. -/
def crcRefOut : Bool := false
/-- `CRC_XOROUT`: the final XOR value (none). -/
def crcXorOut : BitVec crcWidth := 0x00
/-- `SOF`: the start byte, the character `$`. -/
def sof : Byte := 0x24
/-- `SEP`: the separator before the CRC, the character `:`. -/
def sep : Byte := 0x3A
/-- `EOF`: the end byte, the line feed. -/
def eof : Byte := 0x0A
/-- `MAX_PAYLOAD`: the longest payload, bytes. -/
def maxPayload : Nat := 255
/-- `ADDR_WIDTH`: width of DST and SRC, bits. -/
abbrev addrWidth : Nat := 8
/-- `CMD_WIDTH`: width of the command id, bits. -/
abbrev cmdWidth : Nat := 8
/-- `LEN_WIDTH`: width of the length field, bits. -/
abbrev lenWidth : Nat := 8
/-- `FRAME_OVERHEAD`: bytes of a frame besides the payload (R48). -/
def frameOverhead : Nat := 8
/-- `MIN_FRAME`: length of a frame with an empty payload. -/
def minFrame : Nat := frameOverhead
/-- `MAX_FRAME`: length of a frame with a payload of `MAX_PAYLOAD` bytes. -/
def maxFrame : Nat := maxPayload + frameOverhead

/-- CMD of WHO_AM_I (R89). -/
def cmdWhoAmI : BitVec cmdWidth := 0x10
/-- CMD of GET_TEMPERATURE (R90). -/
def cmdGetTemperature : BitVec cmdWidth := 0x20
/-- CMD of GET_DIPOLE_MOMENT (R91). -/
def cmdGetDipoleMoment : BitVec cmdWidth := 0x21
/-- CMD of SET_DIPOLE_MOMENT_SETPOINT (R92). -/
def cmdSetDipoleMomentSetpoint : BitVec cmdWidth := 0x22
/-- CMD of START (R93). -/
def cmdStart : BitVec cmdWidth := 0x25
/-- CMD of STOP (R94). -/
def cmdStop : BitVec cmdWidth := 0x26
/-- CMD of GET_STATUS (R95). -/
def cmdGetStatus : BitVec cmdWidth := 0x34

end Sys2Proof.Config

namespace Sys2Proof

/-- The value of the CRC register and of a checksum (10_state.md R17, 40_crc.md R62). -/
abbrev Checksum := BitVec Config.crcWidth
/-- An address, DST or SRC (30_encoding.md R47). -/
abbrev Address := BitVec Config.addrWidth
/-- A command id, CMD (R47, R52). -/
abbrev CommandId := BitVec Config.cmdWidth
/-- A length field, LEN (R47). -/
abbrev LengthField := BitVec Config.lenWidth

end Sys2Proof
end

