-- ==== Sys2Proof/Syntax.lean ====
section
/-! DEFINITION. The instructions (one constructor per row of spec/opcode_table.json), their operands, and the
two forms in which an instruction is presented to the block: the operation record (30_encoding.md R53) and the
wire frame (R47). -/

namespace Sys2Proof

/-- The Frame record of 00_scope.md R13. The payload's bound of 255 bytes is a check of WellFormed. -/
structure Frame where
  dst : Address
  src : Address
  cmd : CommandId
  payload : Bytes
  checksum : Checksum
deriving DecidableEq, Repr

/-- The instructions: the nine operations of R54, then the requests of the seven catalog commands
(44_command_catalog.md R89 to R95), whose CMD byte is fixed and whose other frame fields are operands. -/
inductive Instr where
  /-- CRC_INIT, R66. -/
  | crcInit
  /-- CRC_UPDATE b, R67. -/
  | crcUpdate (b : Byte)
  /-- CRC_READ, R68. -/
  | crcRead
  /-- CRC_COMPUTE data, R69. -/
  | crcCompute (data : Bytes)
  /-- ENCODE dst, src, cmd, payload, R71. -/
  | encode (dst src : Address) (cmd : CommandId) (payload : Bytes)
  /-- DECODE buf, R76. -/
  | decode (buf : Bytes)
  /-- RESP_CHECK req_dst, req_src, req_cmd, rsp, R82. -/
  | respCheck (reqDst reqSrc : Address) (reqCmd : CommandId) (rsp : Frame)
  /-- RX_BYTE b, R85. -/
  | rxByte (b : Byte)
  /-- RX_FLUSH, R86. -/
  | rxFlush
  /-- The request of WHO_AM_I, R89. -/
  | whoAmI (dst src : Address) (payload : Bytes)
  /-- The request of GET_TEMPERATURE, R90. -/
  | getTemperature (dst src : Address) (payload : Bytes)
  /-- The request of GET_DIPOLE_MOMENT, R91. -/
  | getDipoleMoment (dst src : Address) (payload : Bytes)
  /-- The request of SET_DIPOLE_MOMENT_SETPOINT, R92. -/
  | setDipoleMomentSetpoint (dst src : Address) (payload : Bytes)
  /-- The request of START, R93. -/
  | start (dst src : Address) (payload : Bytes)
  /-- The request of STOP, R94. -/
  | stop (dst src : Address) (payload : Bytes)
  /-- The request of GET_STATUS, R95. -/
  | getStatus (dst src : Address) (payload : Bytes)
deriving DecidableEq, Repr

/-- The operation selects of R54, by name. -/
inductive Select where
  | crcInit | crcUpdate | crcRead | crcCompute | encode | decode | respCheck | rxByte | rxFlush
deriving DecidableEq, Repr

/-- The commands of the catalog, by name (30_encoding.md R52). -/
inductive Command where
  | whoAmI | getTemperature | getDipoleMoment | setDipoleMomentSetpoint | start | stop | getStatus
deriving DecidableEq, Repr

/-- An operand of an operation record: a byte, a byte sequence or a Frame record, passed whole (R53). -/
inductive Operand where
  | byte (b : Byte)
  | seq (bs : Bytes)
  | frame (f : Frame)
deriving DecidableEq, Repr

/-- The operation record: a 4-bit select and the operand list (R53). -/
structure OpRecord where
  op : BitVec 4
  operands : List Operand
deriving DecidableEq, Repr

/-- What an issuer presents to the block: an operation record, or a wire frame to be sent (the format of the
catalog rows of the opcode table). DESIGN CHOICE for the second form (notes/assumptions/4.md). -/
inductive Request where
  | op (r : OpRecord)
  | wire (frame : Bytes)
deriving DecidableEq, Repr

/-- The agents of R16 that bring operations to the block. -/
inductive Issuer where
  | host
  | receiveLink
deriving DecidableEq, Repr

/-- Who issues an instruction: the receive link delivers bytes by RX_BYTE, the host issues the rest (R16). This
is a description of who issues what, not a protection (R107). -/
def Instr.issuer : Instr → Issuer
  | .rxByte _ => .receiveLink
  | .crcInit | .crcUpdate _ | .crcRead | .crcCompute _ | .encode .. | .decode _ | .respCheck .. | .rxFlush
  | .whoAmI .. | .getTemperature .. | .getDipoleMoment .. | .setDipoleMomentSetpoint .. | .start .. | .stop ..
  | .getStatus .. => .host

end Sys2Proof
end

