-- ==== Sys2Proof/Machine/Response.lean ====
section
/-! DEFINITION. What an operation answers (00_scope.md R13), and the named errors with the information each records
(60_exceptions.md R99, R100). -/

namespace Sys2Proof.Machine

/-- The four reasons of `MalformedFrame`, each with what it records (R99). -/
inductive Malformed where
  | tooShort (length : Nat)
  | badStart (byte : Byte)
  | badEnd (byte : Byte)
  | badSeparator (byte : Byte)
deriving DecidableEq, Repr

/-- The three reasons of `UnexpectedResponse` (R99, R82). -/
inductive Mismatch where
  | wrongDestination
  | wrongSource
  | wrongCommand
deriving DecidableEq, Repr

/-- The errors the block raises, each with the information it records (R99). -/
inductive BlockError where
  | encodeError (length : Nat)
  | malformedFrame (why : Malformed)
  | lengthMismatch (declared : LengthField) (actual : Nat)
  | checksumMismatch (received computed : Checksum)
  | unexpectedResponse (why : Mismatch) (got want : Byte)
deriving DecidableEq, Repr

/-- The errors of the document that the block never raises; they arise in host software (R100). -/
inductive HostError where
  | timeout
  | communicationError
  | rangeError
deriving DecidableEq, Repr

/-- The value of an `Ok` response (the response column of R54). -/
inductive Value where
  | unit
  | byte (c : Byte)
  | bytes (f : Bytes)
  | frame (f : Frame)
  | count (n : Nat)
deriving DecidableEq, Repr

/-- A response: `Ok(v)`, `Err(E, info)`, or one of the three answers of RX_BYTE (R13, R84). -/
inductive Response where
  | ok (v : Value)
  | err (e : BlockError)
  | discarded
  | pending
  | complete (buf : Bytes)
deriving DecidableEq, Repr

end Sys2Proof.Machine
end

