-- ==== Sys2Proof/Machine/Flags.lean ====
section
/-! DEFINITION. The block has no flags and no status register (10_state.md R26). What stands in their place is the
status encoding of an outcome: the numeric codes of 60_exceptions.md R99 and the retry class of R101. No operation
reads any of these (R101). -/

namespace Sys2Proof.Machine

/-- The code of a response: 0 for success, else the error's code (R99). The answers of RX_BYTE are no errors. -/
def BlockError.code : BlockError → Nat
  | .encodeError _ => 1
  | .malformedFrame _ => 2
  | .lengthMismatch .. => 3
  | .checksumMismatch .. => 4
  | .unexpectedResponse .. => 5

def Response.code : Response → Nat
  | .err e => e.code
  | .ok _ | .discarded | .pending | .complete _ => 0

/-- The reason codes of `MalformedFrame` (R99). -/
def Malformed.code : Malformed → Nat
  | .tooShort _ => 0
  | .badStart _ => 1
  | .badEnd _ => 2
  | .badSeparator _ => 3

/-- The reason codes of `UnexpectedResponse` (R99). -/
def Mismatch.code : Mismatch → Nat
  | .wrongDestination => 0
  | .wrongSource => 1
  | .wrongCommand => 2

/-- The reason code an error carries, where R99 gives one. -/
def BlockError.reason : BlockError → Option Nat
  | .malformedFrame why => some why.code
  | .unexpectedResponse why _ _ => some why.code
  | .encodeError _ | .lengthMismatch .. | .checksumMismatch .. => none

/-- The retry class of the block's errors (R101; LengthMismatch by 90_conflicts.md C3). -/
def BlockError.retryable : BlockError → Bool
  | .encodeError _ => false
  | .malformedFrame _ | .lengthMismatch .. | .checksumMismatch .. | .unexpectedResponse .. => true

/-- The retry class of the host's errors (R101). -/
def HostError.retryable : HostError → Bool
  | .timeout => true
  | .communicationError | .rangeError => false

end Sys2Proof.Machine
end

