-- ==== Sys2Proof/Machine/Operands.lean ====
section
/-! DEFINITION. The operand forms: slices of a sequence (00_scope.md R11), the length arithmetic of a frame
(30_encoding.md R50, R51), and the operand list that each select takes (R54). -/

namespace Sys2Proof.Machine

/-- `s[i..j)`, the bytes i to j−1 (R11). Its uses keep `i ≤ j ≤ len(s)`, outside which R11 defines nothing. -/
def slice (s : Bytes) (i j : Nat) : Bytes := (s.drop i).take (j - i)

/-- `L[7:0]`, the LEN byte of a payload length (R71, R50). -/
def lenByte (n : Nat) : LengthField := BitVec.ofNat Config.lenWidth n

/-- `zext_16(LEN) + 8`, the whole length of a frame that declares LEN (R51). The sum is at most 263, so 16 bits
never wrap and a natural number says the same (lemma `frameLength_eq_zext16`). -/
def frameLength (len : LengthField) : Nat := len.toNat + Config.frameOverhead

end Sys2Proof.Machine
end

