-- ==== Sys2Proof/Machine/Crc.lean ====
section
/-! DEFINITION. The checksum algorithm (40_crc.md R60 to R62), bit by bit and most significant bit first (R34). -/

namespace Sys2Proof.Machine

/-- A value at the input or the output of the unit: bits reversed where the parameter says "reflected". Both parameters
of R6 say that it is not. -/
def reflectIf (reflected : Bool) (v : Checksum) : Checksum := if reflected then v.reverse else v

/-- One of the eight rounds of R61: shift left, and XOR in the polynomial when bit 7, the bit shifted
out, was 1 (else nothing is XORed in). -/
def crcShift (t : Checksum) : Checksum := (t <<< 1) ^^^ (if t.msb then Config.crcPoly else 0)

/-- `crc_step(c, b)` of R61: the byte enters at the top, then as many rounds as the register is wide (R61's 8). -/
def crcStep (c : Checksum) (b : Byte) : Checksum := crcShift^[Config.crcWidth] (c ^^^ reflectIf Config.crcRefIn b)

/-- What the register shows: no output reflection and no final XOR (the last line of R62; R68). -/
def crcResult (c : Checksum) : Checksum := reflectIf Config.crcRefOut c ^^^ Config.crcXorOut

/-- `crc8(m)` of R62: a function of the bytes alone. -/
def crc8 (m : Bytes) : Checksum := crcResult (m.foldl crcStep Config.crcInit)

end Sys2Proof.Machine
end

