-- ==== Sys2Proof/Machine/Frame.lean ====
section
/-! DEFINITION. The wire frame as pure functions: assembling one (30_encoding.md R47, R50; 41_frame_encoder.md R71),
checking and reading one (42_frame_decoder.md R76), matching a response (R82), and knowing where one ends (R51). -/

namespace Sys2Proof.Machine

/-- The bytes that the CRC covers: DST, SRC, CMD, LEN and the payload (R48). -/
def frameBody (dst src : Address) (cmd : CommandId) (payload : Bytes) : Bytes :=
  [dst, src, cmd, lenByte payload.length] ++ payload

/-- The whole frame `$ DST SRC CMD LEN PAYLOAD : CRC \n` (R47), with no stuffing (R49). -/
def buildFrame (dst src : Address) (cmd : CommandId) (payload : Bytes) : Bytes :=
  [Config.sof] ++ frameBody dst src cmd payload
    ++ [Config.sep, crc8 (frameBody dst src cmd payload), Config.eof]

/-- `encode` of R71: the frame, or `EncodeError` exactly when the payload is longer than 255 bytes. -/
def encodeFrame (dst src : Address) (cmd : CommandId) (payload : Bytes) : Except BlockError Bytes :=
  if Config.maxPayload < payload.length then .error (.encodeError payload.length)
  else .ok (buildFrame dst src cmd payload)

/-- The checks of R76 on a buffer of at least 8 bytes, in the order of R78; the bound makes every index exist. -/
def parseLong (buf : Bytes) (h : Config.minFrame ≤ buf.length) : Except BlockError Frame :=
  have h8 : 8 ≤ buf.length := h
  let n := buf.length
  let received := buf[n - 2]'(by omega)
  let computed := crc8 (slice buf 1 (n - 3))
  let declared := buf[4]'(by omega)
  if buf[0]'(by omega) ≠ Config.sof then .error (.malformedFrame (.badStart (buf[0]'(by omega))))
  else if buf[n - 1]'(by omega) ≠ Config.eof then .error (.malformedFrame (.badEnd (buf[n - 1]'(by omega))))
  else if buf[n - 3]'(by omega) ≠ Config.sep then
    .error (.malformedFrame (.badSeparator (buf[n - 3]'(by omega))))
  else if computed ≠ received then .error (.checksumMismatch received computed)
  else if declared.toNat ≠ n - Config.frameOverhead then
    .error (.lengthMismatch declared (n - Config.frameOverhead))
  else .ok
    { dst := buf[1]'(by omega), src := buf[2]'(by omega), cmd := buf[3]'(by omega)
      payload := slice buf 5 (5 + declared.toNat), checksum := received }

/-- `decode` of R76: the Frame record, or the first failing check. -/
def parseFrame (buf : Bytes) : Except BlockError Frame :=
  if h : Config.minFrame ≤ buf.length then parseLong buf h
  else .error (.malformedFrame (.tooShort buf.length))

/-- The checks of RESP_CHECK in order (R82): the response's addresses are the request's, swapped, and its command
id is the request's. Payload and checksum are not examined. -/
def matchResponse (reqDst reqSrc : Address) (reqCmd : CommandId) (rsp : Frame) : Except BlockError Unit :=
  if rsp.dst ≠ reqSrc then .error (.unexpectedResponse .wrongDestination rsp.dst reqSrc)
  else if rsp.src ≠ reqDst then .error (.unexpectedResponse .wrongSource rsp.src reqDst)
  else if rsp.cmd ≠ reqCmd then .error (.unexpectedResponse .wrongCommand rsp.cmd reqCmd)
  else .ok ()

/-- Whether the assembler's buffer is a whole frame: its fifth byte, LEN, is in, and it has the length that LEN
declares (R85). Before the fifth byte it never is. -/
def frameDone (buf : Bytes) : Bool :=
  match buf[4]? with
  | some len => buf.length == frameLength len
  | none => false

/-- A response buffer is accepted when DECODE answers a Frame and RESP_CHECK then answers Ok (R83). -/
def accepted (reqDst reqSrc : Address) (reqCmd : CommandId) (buf : Bytes) : Option Frame :=
  match parseFrame buf with
  | .error _ => none
  | .ok rsp =>
    match matchResponse reqDst reqSrc reqCmd rsp with
    | .error _ => none
    | .ok () => some rsp

end Sys2Proof.Machine
end

