-- ==== Sys2Proof/Machine/Catalog.lean ====
section
/-! DEFINITION. The command catalog (44_command_catalog.md): each command's id, what its request and its response
carry, and the request as an instruction. The block never reads a payload's content (R96, R9). -/

namespace Sys2Proof.Machine

/-- What a payload is, by the names of the document. The formats themselves are open parameters of the host
(00_scope.md R9) and are not modelled. -/
inductive PayloadKind where
  /-- A payload of length 0 (R97). -/
  | empty
  /-- `ID_STRING_FORMAT`, open. -/
  | identification
  /-- `TEMP_FORMAT`, open. -/
  | temperature
  /-- `MOMENT_FORMAT`, open. -/
  | moment
  /-- `ACK_PAYLOAD`, open. -/
  | acknowledgement
  /-- `STATUS_LAYOUT`, open. -/
  | status
deriving DecidableEq, Repr

/-- The closed set of commands, in the catalog's order (R52). -/
def catalog : List Command :=
  [.whoAmI, .getTemperature, .getDipoleMoment, .setDipoleMomentSetpoint, .start, .stop, .getStatus]

/-- The CMD byte of a command (R52, R89 to R95). -/
def cmdId : Command → CommandId
  | .whoAmI => Config.cmdWhoAmI
  | .getTemperature => Config.cmdGetTemperature
  | .getDipoleMoment => Config.cmdGetDipoleMoment
  | .setDipoleMomentSetpoint => Config.cmdSetDipoleMomentSetpoint
  | .start => Config.cmdStart
  | .stop => Config.cmdStop
  | .getStatus => Config.cmdGetStatus

/-- The command a CMD byte is assigned to, if any; the other 249 values are unassigned (R98). -/
def commandOf (cmd : CommandId) : Option Command := catalog.find? (fun c => cmdId c == cmd)

/-- What a command's request carries (the catalog's third column). -/
def requestKind : Command → PayloadKind
  | .setDipoleMomentSetpoint => .moment
  | .whoAmI | .getTemperature | .getDipoleMoment | .start | .stop | .getStatus => .empty

/-- What a command's response carries (the catalog's fourth column). -/
def responseKind : Command → PayloadKind
  | .whoAmI => .identification
  | .getTemperature => .temperature
  | .getDipoleMoment => .moment
  | .setDipoleMomentSetpoint | .start | .stop => .acknowledgement
  | .getStatus => .status

/-- The host's duty on a request payload (R97): an "empty" request has length 0. The block does not enforce it
(R73), and the length of a moment is open. -/
def requestConforms (c : Command) (payload : Bytes) : Bool :=
  match requestKind c with
  | .empty => payload.isEmpty
  | .identification | .temperature | .moment | .acknowledgement | .status => true

/-- The instruction that sends a command's request. -/
def commandInstr (c : Command) (dst src : Address) (payload : Bytes) : Instr :=
  match c with
  | .whoAmI => .whoAmI dst src payload
  | .getTemperature => .getTemperature dst src payload
  | .getDipoleMoment => .getDipoleMoment dst src payload
  | .setDipoleMomentSetpoint => .setDipoleMomentSetpoint dst src payload
  | .start => .start dst src payload
  | .stop => .stop dst src payload
  | .getStatus => .getStatus dst src payload

end Sys2Proof.Machine
end

