-- ==== Sys2Proof/WellFormed.lean ====
section
/-! DEFINITION. Which instruction terms the spec admits. Every byte operand may take any value and every sequence
operand any length (30_encoding.md R56); two bounds remain, both of the frame format. -/

namespace Sys2Proof

/-- A Frame record holds a payload of at most 255 bytes (00_scope.md R13). -/
def Frame.wellFormed (f : Frame) : Bool := decide (f.payload.length ≤ Config.maxPayload)

/-- The check. RESP_CHECK's operand is a Frame record (R56, R13); the request of a catalog command is a wire
frame, whose LEN byte holds at most 255 (R47). ENCODE and DECODE take sequences of any length. -/
def Instr.wellFormed : Instr → Bool
  | .crcInit | .crcUpdate _ | .crcRead | .crcCompute _ | .encode .. | .decode _ | .rxByte _ | .rxFlush => true
  | .respCheck _ _ _ rsp => rsp.wellFormed
  | .whoAmI _ _ p | .getTemperature _ _ p | .getDipoleMoment _ _ p | .setDipoleMomentSetpoint _ _ p
  | .start _ _ p | .stop _ _ p | .getStatus _ _ p => decide (p.length ≤ Config.maxPayload)

end Sys2Proof
end

