-- ==== Sys2Proof/Decode.lean ====
section
/-! DEFINITION. From what is presented to the block to an instruction, and back. An operation record is decoded by
its select and operand list (30_encoding.md R53, R54); a wire frame is checked as R76 checks one and named by its CMD
byte (R47, R52). Everything else is rejected by name (R55). -/

namespace Sys2Proof

open Machine (BlockError)

/-- Why a presentation is no operation. -/
inductive DecodeError where
  /-- One of the reserved selects `0000` and `1010` to `1111` (R55). -/
  | reservedSelect (op : BitVec 4)
  /-- The operand list is not the one R54 gives the select. -/
  | badOperands (sel : Select)
  /-- RESP_CHECK's Frame operand has a payload longer than a Frame record holds (R13). -/
  | notAFrame (length : Nat)
  /-- The wire bytes presented are no frame (R47, R76). -/
  | badFrame (e : BlockError)
deriving DecidableEq, Repr

/-- `op[3:0]` of a select (R54). -/
def Select.code : Select → BitVec 4
  | .crcInit => 0b0001
  | .crcUpdate => 0b0010
  | .crcRead => 0b0011
  | .crcCompute => 0b0100
  | .encode => 0b0101
  | .decode => 0b0110
  | .respCheck => 0b0111
  | .rxByte => 0b1000
  | .rxFlush => 0b1001

/-- Every select, in the order of R54. -/
def Select.all : List Select :=
  [.crcInit, .crcUpdate, .crcRead, .crcCompute, .encode, .decode, .respCheck, .rxByte, .rxFlush]

/-- The select of a code; none for the reserved codes (R55). -/
def Select.ofCode (op : BitVec 4) : Option Select := Select.all.find? (fun s => s.code == op)

/-- The instruction of a select and its operand list (R54). -/
def decodeOperands (sel : Select) (operands : List Operand) : Except DecodeError Instr :=
  match sel, operands with
  | .crcInit, [] => .ok .crcInit
  | .crcUpdate, [.byte b] => .ok (.crcUpdate b)
  | .crcRead, [] => .ok .crcRead
  | .crcCompute, [.seq data] => .ok (.crcCompute data)
  | .encode, [.byte dst, .byte src, .byte cmd, .seq payload] => .ok (.encode dst src cmd payload)
  | .decode, [.seq buf] => .ok (.decode buf)
  | .respCheck, [.byte reqDst, .byte reqSrc, .byte reqCmd, .frame rsp] =>
    if rsp.wellFormed then .ok (.respCheck reqDst reqSrc reqCmd rsp) else .error (.notAFrame rsp.payload.length)
  | .rxByte, [.byte b] => .ok (.rxByte b)
  | .rxFlush, [] => .ok .rxFlush
  | sel, _ => .error (.badOperands sel)

/-- An operation record (R53). -/
def decodeOp (r : OpRecord) : Except DecodeError Instr :=
  match Select.ofCode r.op with
  | some sel => decodeOperands sel r.operands
  | none => .error (.reservedSelect r.op)

/-- The instruction that sends a frame with these fields: the catalog command of its CMD byte, or ENCODE for an
unassigned one, which the block treats like any other (44_command_catalog.md R98). -/
def sendInstr (f : Frame) : Instr :=
  match Machine.commandOf f.cmd with
  | some c => Machine.commandInstr c f.dst f.src f.payload
  | none => .encode f.dst f.src f.cmd f.payload

/-- A wire frame presented for sending. DESIGN CHOICE (notes/assumptions/4.md): it must be a frame by R76. -/
def decodeWire (bytes : Bytes) : Except DecodeError Instr :=
  match Machine.parseFrame bytes with
  | .ok f => .ok (sendInstr f)
  | .error e => .error (.badFrame e)

/-- The decoder, total on everything that can be presented. -/
def decode : Request → Except DecodeError Instr
  | .op r => decodeOp r
  | .wire bytes => decodeWire bytes

/-- The record of a select and its operands. -/
def opRequest (sel : Select) (operands : List Operand) : Request :=
  .op { op := sel.code, operands := operands }

/-- The wire frame of a command's request (R47, R89 to R95). -/
def wireRequest (c : Command) (dst src : Address) (payload : Bytes) : Request :=
  .wire (Machine.buildFrame dst src (Machine.cmdId c) payload)

/-- The encoder, from the same tables of the spec (R54, R47, R52). -/
def encode : Instr → Request
  | .crcInit => opRequest .crcInit []
  | .crcUpdate b => opRequest .crcUpdate [.byte b]
  | .crcRead => opRequest .crcRead []
  | .crcCompute data => opRequest .crcCompute [.seq data]
  | .encode dst src cmd payload => opRequest .encode [.byte dst, .byte src, .byte cmd, .seq payload]
  | .decode buf => opRequest .decode [.seq buf]
  | .respCheck reqDst reqSrc reqCmd rsp =>
    opRequest .respCheck [.byte reqDst, .byte reqSrc, .byte reqCmd, .frame rsp]
  | .rxByte b => opRequest .rxByte [.byte b]
  | .rxFlush => opRequest .rxFlush []
  | .whoAmI dst src payload => wireRequest .whoAmI dst src payload
  | .getTemperature dst src payload => wireRequest .getTemperature dst src payload
  | .getDipoleMoment dst src payload => wireRequest .getDipoleMoment dst src payload
  | .setDipoleMomentSetpoint dst src payload => wireRequest .setDipoleMomentSetpoint dst src payload
  | .start dst src payload => wireRequest .start dst src payload
  | .stop dst src payload => wireRequest .stop dst src payload
  | .getStatus dst src payload => wireRequest .getStatus dst src payload

/-- The bits that the opcode table gives a presentation: the select of a record, frame byte 3 of a wire frame. -/
def tableBits : Request → Option Nat
  | .op r => some r.op.toNat
  | .wire bytes => bytes[3]?.map BitVec.toNat

/-- Operands of zeros for a select: zero bytes, empty sequences, the Frame of zeros. -/
def zeroOperands : Select → List Operand
  | .crcInit | .crcRead | .rxFlush => []
  | .crcUpdate | .rxByte => [.byte 0]
  | .crcCompute | .decode => [.seq []]
  | .encode => [.byte 0, .byte 0, .byte 0, .seq []]
  | .respCheck =>
    [.byte 0, .byte 0, .byte 0, .frame { dst := 0, src := 0, cmd := 0, payload := [], checksum := 0 }]

/-- The presentation that a word of the opcode table stands for, every operand zero. A word below 16 is a select
(bits 3..0); any other is frame byte 3 of a wire frame, whose delimiters and CRC are those of its fields. DESIGN
CHOICE (notes/assumptions/5.md): the table's two formats never share a word. -/
def requestOfTableWord (nbits w : Nat) : Request :=
  let bits := w % 2 ^ nbits
  if bits < 16 then
    let op := BitVec.ofNat 4 bits
    .op { op := op, operands := ((Select.ofCode op).map zeroOperands).getD [] }
  else .wire (Machine.buildFrame 0 0 (BitVec.ofNat Config.cmdWidth bits) [])

/-- The instruction the decoder reads from a word of the opcode table. -/
def decodeTableWord (nbits w : Nat) : Option Instr := (decode (requestOfTableWord nbits w)).toOption

end Sys2Proof
end

