-- ==== Sys2Proof/Machine/State.lean ====
section
/-! DEFINITION. All the state the spec gives the block (10_state.md), the outside world as plain data beside it, the
reasons a step can stop, and reset. -/

namespace Sys2Proof.Machine

/-- The receive assembler's mode `rx_state` (10_state.md R18). -/
inductive RxState where
  /-- Waiting for a start byte. -/
  | hunt
  /-- Inside a frame. -/
  | collect
deriving DecidableEq, Repr

/-- What the outside world brings to the block, one event a step (00_scope.md R16). -/
inductive Event where
  /-- The host or the receive link presents an operation (30_encoding.md R53). -/
  | issue (r : Request)
  /-- The transmit link takes the next byte of the transmit stream (10_state.md R21). -/
  | txTake
deriving DecidableEq, Repr

/-- The faults of the block: none. "No behaviour of the block is `fault` or `stuck`"
(93_implementation_defined.md, after U15); an error is a response (60_exceptions.md R104). Nobody raises one: safe. -/
inductive Fault where
deriving DecidableEq, Repr

/-- Why a step has no transition. -/
inductive Refusal where
  /-- Raised by the dispatcher for an instruction whose meaning is not written (no arm does): safe. -/
  | notModelled (mnemonic : String)
  /-- Raised by the step when what is presented is no operation: a reserved select (30_encoding.md R55), an operand
  list that is not the select's, or bytes that are no frame. Safe: the spec gives it no response and no transition. -/
  | notAnOperation (why : DecodeError)
deriving DecidableEq, Repr

/-- The state. The first four fields are the block's (10_state.md R17 to R21). The last three are the model's record
of the outside world: how far the transmit link has read `tx` (R21), the responses given (70_reset_and_hazards.md
R117), and the events to come in the total order of 20_memory.md R40. -/
structure State where
  /-- `crc`, the CRC register (R17). -/
  crc : Checksum
  /-- `rx_state`, the assembler's mode (R18). -/
  rxState : RxState
  /-- `rx_buf`, the assembler's frame buffer (R19). -/
  rxBuf : Bytes
  /-- `tx`, every byte emitted since reset, oldest first (R21). -/
  tx : Bytes
  /-- How many bytes of `tx` the transmit link has taken. -/
  txTaken : Nat
  /-- The response of every operation since reset, oldest first. -/
  responses : List Response
  /-- The events still to come, next first. -/
  inbox : List Event
deriving DecidableEq, Repr

/-- The state right after reset (10_state.md R29, 70_reset_and_hazards.md R113). The model's own fields start empty:
DESIGN CHOICE (notes/assumptions/11.md). -/
def State.reset : State :=
  { crc := Config.crcInit, rxState := .hunt, rxBuf := [], tx := [], txTaken := 0, responses := [], inbox := [] }

end Sys2Proof.Machine
end

