-- ==== Sys2Proof/Machine/Ops.lean ====
section
/-! DEFINITION. The operations over state that the meanings are written with: the pseudocode primitives of 00_scope.md
R12. Raising an error takes the place of taking an exception: the block has no traps, and an error is the operation's
response with no other effect (60_exceptions.md R102, R104), so there is also nothing to return from. -/

namespace Sys2Proof.Machine

/-- How a step or a meaning ends. -/
abbrev Result := Host.Outcome State Fault Refusal

/-- `crc <- v` (R12). -/
def State.setCrc (s : State) (v : Checksum) : State := { s with crc := v }

/-- `rx_state <- mode` and `rx_buf <- buf` (R12). -/
def State.setRx (s : State) (mode : RxState) (buf : Bytes) : State := { s with rxState := mode, rxBuf := buf }

/-- `emit(bs)`: appended to the transmit stream, all bytes at once (R12, 20_memory.md R38). -/
def State.emit (s : State) (bs : Bytes) : State := { s with tx := s.tx ++ bs }

/-- `respond(r)` (R12). -/
def State.respond (s : State) (r : Response) : State := { s with responses := s.responses ++ [r] }

/-- `raise e`: the response `Err(e)`, with no state written and nothing emitted (R12, R102). -/
def State.raise (s : State) (e : BlockError) : State := s.respond (.err e)

/-- An operation ends with `Ok(v)`. -/
def State.answer (s : State) (v : Value) : State := s.respond (.ok v)

/-- ENCODE's effect (41_frame_encoder.md R71), shared with the requests of the catalog commands: build the frame,
send it and answer it, or raise `EncodeError`. -/
def sendFrame (dst src : Address) (cmd : CommandId) (payload : Bytes) (s : State) : State :=
  match encodeFrame dst src cmd payload with
  | .ok f => (s.emit f).answer (.bytes f)
  | .error e => s.raise e

/-- The request of a catalog command: ENCODE with the command's id (44_command_catalog.md R89 to R95). -/
def sendCommand (c : Command) (dst src : Address) (payload : Bytes) (s : State) : State :=
  sendFrame dst src (cmdId c) payload s

/-- DECODE's effect (42_frame_decoder.md R76): only a response. -/
def checkBuffer (buf : Bytes) (s : State) : State :=
  match parseFrame buf with
  | .ok f => s.answer (.frame f)
  | .error e => s.raise e

/-- RESP_CHECK's effect (R82): only a response. -/
def checkResponse (reqDst reqSrc : Address) (reqCmd : CommandId) (rsp : Frame) (s : State) : State :=
  match matchResponse reqDst reqSrc reqCmd rsp with
  | .ok () => s.answer .unit
  | .error e => s.raise e

/-- A byte outside a frame (the HUNT branch of 43_rx_assembler.md R85). -/
def huntByte (b : Byte) (s : State) : State :=
  if b = Config.sof then (s.setRx .collect [b]).respond .pending
  else s.respond .discarded

/-- A byte inside a frame (the COLLECT branch of R85). -/
def collectByte (b : Byte) (s : State) : State :=
  let buf := s.rxBuf ++ [b]
  if frameDone buf then (s.setRx .hunt []).respond (.complete buf)
  else (s.setRx .collect buf).respond .pending

/-- RX_BYTE's effect (R85). -/
def receiveByte (b : Byte) (s : State) : State :=
  match s.rxState with
  | .hunt => huntByte b s
  | .collect => collectByte b s

/-- RX_FLUSH's effect (R86): the partial frame is dropped, and its length answered. -/
def flushRx (s : State) : State := (s.setRx .hunt []).answer (.count s.rxBuf.length)

/-- The transmit link takes the next byte of `tx`, if there is one (10_state.md R21). It removes nothing from `tx`,
which is the whole sequence emitted since reset; with nothing left to take, nothing happens: DESIGN CHOICE
(notes/assumptions/7.md). -/
def State.takeTx (s : State) : State :=
  if s.txTaken < s.tx.length then { s with txTaken := s.txTaken + 1 } else s

/-- The bytes that the transmit link has taken so far. -/
def State.taken (s : State) : Bytes := s.tx.take s.txTaken

/-- The next event of the outside world, and the state with it consumed (20_memory.md R40). -/
def State.nextEvent (s : State) : Option (Event × State) :=
  match s.inbox with
  | [] => none
  | e :: rest => some (e, { s with inbox := rest })

/-- An operation is presented before everything still to come. -/
def State.present (s : State) (r : Request) : State := { s with inbox := .issue r :: s.inbox }

end Sys2Proof.Machine
end

