-- ==== Sys2Proof/Machine/Codec.lean ====
section
/-! DEFINITION. The meanings of the frame encoder's, decoder's and response checker's operations (41_frame_encoder.md,
42_frame_decoder.md). -/

namespace Sys2Proof.Machine

/-- ENCODE dst, src, cmd, payload (R71). -/
def execEncode (dst src : Address) (cmd : CommandId) (payload : Bytes) (s : State) : Result := .next (sendFrame dst src cmd payload s)

/-- DECODE buf (R76). -/
def execDecode (buf : Bytes) (s : State) : Result := .next (checkBuffer buf s)

/-- RESP_CHECK req_dst, req_src, req_cmd, rsp (R82). -/
def execRespCheck (reqDst reqSrc : Address) (reqCmd : CommandId) (rsp : Frame) (s : State) : Result :=
  .next (checkResponse reqDst reqSrc reqCmd rsp s)

end Sys2Proof.Machine
end

