-- ==== Sys2Proof/Machine/Commands.lean ====
section
/-! DEFINITION. The meanings of the catalog commands (44_command_catalog.md): each sends the command's request, the
ENCODE that its rule writes. DEDUCED (notes/assumptions/3.md): the rules give a CMD value no other effect at the
block. The payload is the issuer's; the block does not hold it to the catalog (R73, R97). -/

namespace Sys2Proof.Machine

/-- WHO_AM_I (R89). -/
def execWhoAmI (dst src : Address) (payload : Bytes) (s : State) : Result := .next (sendCommand .whoAmI dst src payload s)

/-- GET_TEMPERATURE (R90). -/
def execGetTemperature (dst src : Address) (payload : Bytes) (s : State) : Result :=
  .next (sendCommand .getTemperature dst src payload s)

/-- GET_DIPOLE_MOMENT (R91). -/
def execGetDipoleMoment (dst src : Address) (payload : Bytes) (s : State) : Result :=
  .next (sendCommand .getDipoleMoment dst src payload s)

/-- SET_DIPOLE_MOMENT_SETPOINT (R92). -/
def execSetDipoleMomentSetpoint (dst src : Address) (payload : Bytes) (s : State) : Result :=
  .next (sendCommand .setDipoleMomentSetpoint dst src payload s)

/-- START (R93). -/
def execStart (dst src : Address) (payload : Bytes) (s : State) : Result := .next (sendCommand .start dst src payload s)

/-- STOP (R94). -/
def execStop (dst src : Address) (payload : Bytes) (s : State) : Result := .next (sendCommand .stop dst src payload s)

/-- GET_STATUS (R95). -/
def execGetStatus (dst src : Address) (payload : Bytes) (s : State) : Result :=
  .next (sendCommand .getStatus dst src payload s)

end Sys2Proof.Machine
end

