-- ==== Sys2Proof/Machine/CrcUnit.lean ====
section
/-! DEFINITION. The meanings of the CRC unit's operations (40_crc.md). -/

namespace Sys2Proof.Machine

/-- CRC_INIT (R66). -/
def execCrcInit (s : State) : Result := .next ((s.setCrc Config.crcInit).answer .unit)

/-- CRC_UPDATE b (R67). -/
def execCrcUpdate (b : Byte) (s : State) : Result := .next ((s.setCrc (crcStep s.crc b)).answer .unit)

/-- CRC_READ (R68). -/
def execCrcRead (s : State) : Result := .next (s.answer (.byte (crcResult s.crc)))

/-- CRC_COMPUTE data (R69): the pure checksum; the register is neither read nor written. -/
def execCrcCompute (data : Bytes) (s : State) : Result := .next (s.answer (.byte (crc8 data)))

end Sys2Proof.Machine
end

