-- ==== Sys2Proof/Machine/Receive.lean ====
section
/-! DEFINITION. The meanings of the receive assembler's operations (43_rx_assembler.md). -/

namespace Sys2Proof.Machine

/-- RX_BYTE b (R85). -/
def execRxByte (b : Byte) (s : State) : Result := .next (receiveByte b s)

/-- RX_FLUSH (R86). -/
def execRxFlush (s : State) : Result := .next (flushRx s)

end Sys2Proof.Machine
end

