-- ==== Sys2Proof/Machine/Dispatch.lean ====
section
/-! DEFINITION. One arm per instruction. -/

namespace Sys2Proof.Machine

def exec (i : Instr) (s : State) : Host.Outcome State Fault Refusal :=
  match i with
  | .crcInit => Sys2Proof.Machine.execCrcInit s
  | .crcUpdate b => Sys2Proof.Machine.execCrcUpdate b s
  | .crcRead => Sys2Proof.Machine.execCrcRead s
  | .crcCompute data => Sys2Proof.Machine.execCrcCompute data s
  | .encode dst src cmd payload => Sys2Proof.Machine.execEncode dst src cmd payload s
  | .decode buf => Sys2Proof.Machine.execDecode buf s
  | .respCheck reqDst reqSrc reqCmd rsp => Sys2Proof.Machine.execRespCheck reqDst reqSrc reqCmd rsp s
  | .rxByte b => Sys2Proof.Machine.execRxByte b s
  | .rxFlush => Sys2Proof.Machine.execRxFlush s
  | .whoAmI dst src payload => Sys2Proof.Machine.execWhoAmI dst src payload s
  | .getTemperature dst src payload => Sys2Proof.Machine.execGetTemperature dst src payload s
  | .getDipoleMoment dst src payload => Sys2Proof.Machine.execGetDipoleMoment dst src payload s
  | .setDipoleMomentSetpoint dst src payload => Sys2Proof.Machine.execSetDipoleMomentSetpoint dst src payload s
  | .start dst src payload => Sys2Proof.Machine.execStart dst src payload s
  | .stop dst src payload => Sys2Proof.Machine.execStop dst src payload s
  | .getStatus dst src payload => Sys2Proof.Machine.execGetStatus dst src payload s

end Sys2Proof.Machine
end

