-- ==== Sys2Proof/Machine/Step.lean ====
section
/-! DEFINITION. One step: the next event of the outside world. The block fetches no instructions (20_memory.md R44);
an operation is presented to it (30_encoding.md R53), decoded and performed as one atomic step (R38). -/

namespace Sys2Proof.Machine

/-- A step. With no event to come the block waits (70_reset_and_hazards.md R114), which changes nothing. An event is
the transmit link taking a byte (10_state.md R21) or an operation presented; what is no operation is refused
(30_encoding.md R55). -/
def step (s : State) : Host.Outcome State Fault Refusal :=
  match s.nextEvent with
  | none => .next s
  | some (.txTake, s') => .next s'.takeTx
  | some (.issue r, s') =>
    match decode r with
    | .ok i => exec i s'
    | .error why => .refused (.notAnOperation why)

/-- The state in which the operation of a table word, its operands zero, is the next one presented. -/
def State.withFetchWord (s : State) (nbits w : Nat) : State := s.present (requestOfTableWord nbits w)

end Sys2Proof.Machine
end

