-- ==== Sys2Proof/Machine/Session.lean ====
section
/-! DEFINITION. Sequences of operations: a run (70_reset_and_hazards.md R117), the pseudo-operations of
30_encoding.md R59, and what the host's interactions issue at the block (R128). The host's duties (its lock, its
deadlines, its retries) are host software and outside the block (00_scope.md R4). -/

namespace Sys2Proof.Machine

/-- A run: the operations of a list performed in order, each from the state the one before it left (R117,
20_memory.md R40). -/
def execAll : List Instr → State → Result
  | [], s => .next s
  | i :: is, s =>
    match exec i s with
    | .next t => execAll is t
    | .fault f => .fault f
    | .refused r => .refused r

/-- `CRC_BYTES bs` (R59). -/
def crcBytes (bs : Bytes) : List Instr := bs.map .crcUpdate

/-- `RX_STREAM bs` (R59). -/
def rxStream (bs : Bytes) : List Instr := bs.map .rxByte

/-- How the wait for a response ends for the host: the assembler completed a buffer, or the per-attempt deadline passed
first (R128, rows "check response" and "deadline passes"). -/
inductive Reply where
  | complete (buf : Bytes)
  | deadline
deriving DecidableEq, Repr

/-- What the host issues on the response side of one attempt: DECODE, and RESP_CHECK on the Frame that DECODE answers, or
RX_FLUSH when the deadline passes (R128, R119). -/
def replyIssues (dev host : Address) (cmd : CommandId) : Reply → List Instr
  | .complete buf =>
    match parseFrame buf with
    | .ok rsp => [.decode buf, .respCheck dev host cmd rsp]
    | .error _ => [.decode buf]
  | .deadline => [.rxFlush]

/-- Whether an attempt ends the transaction with a response: the buffer is accepted (42_frame_decoder.md R83). -/
def replyAccepted (dev host : Address) (cmd : CommandId) : Reply → Bool
  | .complete buf => (accepted dev host cmd buf).isSome
  | .deadline => false

/-- The attempts of a transaction, one per reply: the request, its response side, and again until a response is
accepted (R128, row "retry"). -/
def attemptsIssue (request : Instr) (dev host : Address) (cmd : CommandId) : List Reply → List Instr
  | [] => []
  | reply :: later =>
    request :: replyIssues dev host cmd reply ++
      if replyAccepted dev host cmd reply then [] else attemptsIssue request dev host cmd later

/-- How the attempts of a transaction went: the first, and the retries the host was ready to make. The host's bound on
their number is its own parameter (R128, 00_scope.md R8). -/
structure Replies where
  first : Reply
  retries : List Reply
deriving DecidableEq, Repr

/-- A transaction: one command's request and its response side, with the retries (00_scope.md R15, R119, R128). A request
that raises EncodeError is not retried and has no response. -/
def transactionIssues (c : Command) (dev host : Address) (payload : Bytes) (replies : Replies) : List Instr :=
  let request := commandInstr c dev host payload
  if Config.maxPayload < payload.length then [request]
  else attemptsIssue request dev host (cmdId c) (replies.first :: replies.retries)

/-- The transaction with one address of a discovery sweep. -/
structure Probe where
  address : Address
  replies : Replies
deriving DecidableEq, Repr

/-- The interactions of R128, and the whole transaction that its rows make up (R15). -/
inductive Interaction where
  | sendRequest (dev host : Address) (cmd : CommandId) (payload : Bytes)
  | receive (b : Byte)
  | checkResponse (dev host : Address) (cmd : CommandId) (buf : Bytes)
  | deadline
  | retry (dev host : Address) (cmd : CommandId) (payload : Bytes)
  | transaction (c : Command) (dev host : Address) (payload : Bytes) (replies : Replies)
  | keepAliveTick (dev host : Address) (replies : Replies)
  | rangeCheck
  | disconnect (dev host : Address) (replies : Replies)
  | discover (host : Address) (probes : List Probe)
deriving DecidableEq, Repr

/-- What an interaction issues at the block (R128). A tick is a GET_STATUS transaction, a disconnect a STOP transaction
and then nothing more, a discovery a WHO_AM_I transaction with each swept address. Bytes received are issued by the
link, not by the host: `receive` is its row. -/
def interactionIssues : Interaction → List Instr
  | .sendRequest dev host cmd payload => [.encode dev host cmd payload]
  | .receive b => [.rxByte b]
  | .checkResponse dev host cmd buf => replyIssues dev host cmd (.complete buf)
  | .deadline => [.rxFlush]
  | .retry dev host cmd payload => [.encode dev host cmd payload]
  | .transaction c dev host payload replies => transactionIssues c dev host payload replies
  | .keepAliveTick dev host replies => transactionIssues .getStatus dev host [] replies
  | .rangeCheck => []
  | .disconnect dev host replies => transactionIssues .stop dev host [] replies
  | .discover host probes => probes.flatMap fun p => transactionIssues .whoAmI p.address host [] p.replies

end Sys2Proof.Machine
end

