-- ==== Sys2Proof/Safety.lean ====
section
/-! DEFINITION. What a good state is (the assembler's invariant of 10_state.md R20, the transmit stream of R21 and
20_memory.md R41, the buffers and records answered), which inputs keep the block running, and the read and write
table of 20_memory.md R39. -/

namespace Sys2Proof.Machine

/-- The invariant of the receive assembler, clause by clause (10_state.md R20). -/
def State.RxOk (s : State) : Prop :=
  match s.rxState with
  | .hunt => s.rxBuf = []
  | .collect =>
    s.rxBuf[0]? = some Config.sof ∧ ∀ len, s.rxBuf[4]? = some len → s.rxBuf.length < frameLength len

/-- The frames that successful ENCODEs answered, in order. -/
def framesSent (responses : List Response) : List Bytes :=
  responses.filterMap fun
    | .ok (.bytes f) => some f
    | .ok _ | .err _ | .discarded | .pending | .complete _ => none

/-- The transmit stream is the frames answered, in order and with no byte added, dropped or moved (20_memory.md R41),
each is one whole frame (30_encoding.md R47), and the transmit link has taken no byte that was not emitted. -/
def State.TxOk (s : State) : Prop :=
  s.tx = (framesSent s.responses).flatten ∧
  (∀ f ∈ framesSent s.responses, ∃ dst src cmd payload,
    payload.length ≤ Config.maxPayload ∧ f = buildFrame dst src cmd payload) ∧
  s.txTaken ≤ s.tx.length

/-- Every buffer the assembler has completed starts with SOF, has the length that its LEN declares, and is one of a
frame's lengths (43_rx_assembler.md R87). -/
def State.CompletesOk (s : State) : Prop :=
  ∀ buf, Response.complete buf ∈ s.responses →
    buf[0]? = some Config.sof ∧ (∃ len, buf[4]? = some len ∧ buf.length = frameLength len) ∧
      Config.minFrame ≤ buf.length ∧ buf.length ≤ Config.maxFrame

/-- Every Frame record that DECODE has answered is one by 00_scope.md R13. -/
def State.FramesOk (s : State) : Prop :=
  ∀ f, Response.ok (.frame f) ∈ s.responses → f.payload.length ≤ Config.maxPayload

/-- A good state. -/
def State.Inv (s : State) : Prop := s.RxOk ∧ s.TxOk ∧ s.CompletesOk ∧ s.FramesOk

/-- Every presentation still to come is an operation. -/
def State.WellPresented (s : State) : Prop :=
  ∀ r, Event.issue r ∈ s.inbox → ∃ i, decode r = .ok i

/-- A row of the table of 20_memory.md R39. -/
structure Access where
  readsCrc : Bool := false
  writesCrc : Bool := false
  readsRxState : Bool := false
  readsRxBuf : Bool := false
  writesRx : Bool := false
  emits : Bool := false
deriving DecidableEq, Repr

/-- The table of R39. A catalog command is an ENCODE (notes/assumptions/3.md). -/
def access : Instr → Access
  | .crcInit => { writesCrc := true }
  | .crcUpdate _ => { readsCrc := true, writesCrc := true }
  | .crcRead => { readsCrc := true }
  | .crcCompute _ | .decode _ | .respCheck .. => {}
  | .encode .. | .whoAmI .. | .getTemperature .. | .getDipoleMoment .. | .setDipoleMomentSetpoint .. | .start ..
  | .stop .. | .getStatus .. => { emits := true }
  | .rxByte _ => { readsRxState := true, readsRxBuf := true, writesRx := true }
  | .rxFlush => { readsRxBuf := true, writesRx := true }

end Sys2Proof.Machine
end

