-- ==== Sys2Proof/Certificates/Slice0/Obligations.lean ====
section
/-! DEFINITION. The statements for the provers, and the spec's own forms that they compare the model with. -/

open Sys2Proof Sys2Proof.Machine

/-- The table T of 40_crc.md R64, row by row (the high nibble selects the row). -/
def Sys2Proof.Claims.crcTable : List Byte :=
  [0x00, 0xEB, 0x3D, 0xD6, 0x7A, 0x91, 0x47, 0xAC, 0xF4, 0x1F, 0xC9, 0x22, 0x8E, 0x65, 0xB3, 0x58] ++
  [0x03, 0xE8, 0x3E, 0xD5, 0x79, 0x92, 0x44, 0xAF, 0xF7, 0x1C, 0xCA, 0x21, 0x8D, 0x66, 0xB0, 0x5B] ++
  [0x06, 0xED, 0x3B, 0xD0, 0x7C, 0x97, 0x41, 0xAA, 0xF2, 0x19, 0xCF, 0x24, 0x88, 0x63, 0xB5, 0x5E] ++
  [0x05, 0xEE, 0x38, 0xD3, 0x7F, 0x94, 0x42, 0xA9, 0xF1, 0x1A, 0xCC, 0x27, 0x8B, 0x60, 0xB6, 0x5D] ++
  [0x0C, 0xE7, 0x31, 0xDA, 0x76, 0x9D, 0x4B, 0xA0, 0xF8, 0x13, 0xC5, 0x2E, 0x82, 0x69, 0xBF, 0x54] ++
  [0x0F, 0xE4, 0x32, 0xD9, 0x75, 0x9E, 0x48, 0xA3, 0xFB, 0x10, 0xC6, 0x2D, 0x81, 0x6A, 0xBC, 0x57] ++
  [0x0A, 0xE1, 0x37, 0xDC, 0x70, 0x9B, 0x4D, 0xA6, 0xFE, 0x15, 0xC3, 0x28, 0x84, 0x6F, 0xB9, 0x52] ++
  [0x09, 0xE2, 0x34, 0xDF, 0x73, 0x98, 0x4E, 0xA5, 0xFD, 0x16, 0xC0, 0x2B, 0x87, 0x6C, 0xBA, 0x51] ++
  [0x18, 0xF3, 0x25, 0xCE, 0x62, 0x89, 0x5F, 0xB4, 0xEC, 0x07, 0xD1, 0x3A, 0x96, 0x7D, 0xAB, 0x40] ++
  [0x1B, 0xF0, 0x26, 0xCD, 0x61, 0x8A, 0x5C, 0xB7, 0xEF, 0x04, 0xD2, 0x39, 0x95, 0x7E, 0xA8, 0x43] ++
  [0x1E, 0xF5, 0x23, 0xC8, 0x64, 0x8F, 0x59, 0xB2, 0xEA, 0x01, 0xD7, 0x3C, 0x90, 0x7B, 0xAD, 0x46] ++
  [0x1D, 0xF6, 0x20, 0xCB, 0x67, 0x8C, 0x5A, 0xB1, 0xE9, 0x02, 0xD4, 0x3F, 0x93, 0x78, 0xAE, 0x45] ++
  [0x14, 0xFF, 0x29, 0xC2, 0x6E, 0x85, 0x53, 0xB8, 0xE0, 0x0B, 0xDD, 0x36, 0x9A, 0x71, 0xA7, 0x4C] ++
  [0x17, 0xFC, 0x2A, 0xC1, 0x6D, 0x86, 0x50, 0xBB, 0xE3, 0x08, 0xDE, 0x35, 0x99, 0x72, 0xA4, 0x4F] ++
  [0x12, 0xF9, 0x2F, 0xC4, 0x68, 0x83, 0x55, 0xBE, 0xE6, 0x0D, 0xDB, 0x30, 0x9C, 0x77, 0xA1, 0x4A] ++
  [0x11, 0xFA, 0x2C, 0xC7, 0x6B, 0x80, 0x56, 0xBD, 0xE5, 0x0E, 0xD8, 0x33, 0x9F, 0x74, 0xA2, 0x49]

/-- One round of the loop of 40_crc.md R61 on numbers, letter for letter: test bit 7, shift, mask, XOR. -/
def Sys2Proof.Claims.loopRound (t : Nat) : Nat :=
  if t.testBit 7 then ((t <<< 1) &&& 0xFF) ^^^ 0xEB else (t <<< 1) &&& 0xFF

/-- `crc_step` of R61 on numbers. -/
def Sys2Proof.Claims.loopStep (c b : Nat) : Nat := Claims.loopRound^[8] (c ^^^ b)

/-- `crc8` of 40_crc.md R62 on numbers. -/
def Sys2Proof.Claims.loopCrc (m : Bytes) : Nat := (m.foldl (fun c b => Claims.loopStep c b.toNat) 0x00) ^^^ 0x00

/-- A byte as a polynomial over GF(2): bit k is the coefficient of x^k (R60, R63). -/
noncomputable def Sys2Proof.Claims.bytePoly (b : Byte) : Polynomial (ZMod 2) :=
  ∑ k ∈ Finset.range 8, if b.getLsbD k then Polynomial.X ^ k else 0

/-- A byte sequence as the polynomial M(x) of R63: bit 7 of the first byte is the leading coefficient. -/
noncomputable def Sys2Proof.Claims.seqPoly (m : Bytes) : Polynomial (ZMod 2) :=
  m.foldl (fun p b => p * Polynomial.X ^ 8 + Claims.bytePoly b) 0

/-- G(x) of R60, written out. -/
noncomputable def Sys2Proof.Claims.generator : Polynomial (ZMod 2) :=
  Polynomial.X ^ 8 + Polynomial.X ^ 7 + Polynomial.X ^ 6 + Polynomial.X ^ 5 + Polynomial.X ^ 3 + Polynomial.X + 1

/-- A sequence with bit k of byte i flipped. -/
def Sys2Proof.Claims.flipBit (s : Bytes) (i k : Nat) : Bytes := s.modify i (fun b => b ^^^ (1#8 <<< k))

/-- `s` after an operation that only answers `r`. -/
def Sys2Proof.Claims.answered (s : State) (r : Response) : State := { s with responses := s.responses ++ [r] }

/-- The wire frame of 30_encoding.md R47, byte by byte. -/
def Sys2Proof.Claims.wireFrame (dst src cmd : Byte) (p : Bytes) : Bytes :=
  [0x24, dst, src, cmd, BitVec.ofNat 8 p.length] ++ p ++
    [0x3A, crc8 ([dst, src, cmd, BitVec.ofNat 8 p.length] ++ p), 0x0A]

/-- `s` after the frame with these fields is sent: the frame at the end of the transmit stream, and answered. -/
def Sys2Proof.Claims.sent (dst src cmd : Byte) (p : Bytes) (s : State) : State :=
  { s with
    tx := s.tx ++ Claims.wireFrame dst src cmd p
    responses := s.responses ++ [.ok (.bytes (Claims.wireFrame dst src cmd p))] }

-- Machine level -----------------------------------------------------------------------------------------------

/-- 10_state.md R29: the reset value of every piece of state of the block. -/
def Obligations.ResetValues : Prop :=
  State.reset.crc = 0x00 ∧ State.reset.rxState = .hunt ∧ State.reset.rxBuf = [] ∧ State.reset.tx = []

/-- A step is the next event: nothing while none is to come, a byte taken by the transmit link, or the decoded
operation, performed on the state with its presentation consumed. The events as data, the idle step and the link's
reading are the model's choices (notes/assumptions 1, 2 and 7). -/
def Obligations.StepPerformsDecodedOperation : Prop :=
  (∀ s : State, s.inbox = [] → step s = .next s) ∧
  (∀ (s : State) (rest : List Event), s.inbox = .txTake :: rest →
    step s = .next { s with
      txTaken := if s.txTaken < s.tx.length then s.txTaken + 1 else s.txTaken
      inbox := rest }) ∧
  (∀ (s : State) (r : Request) (rest : List Event) (i : Instr), s.inbox = .issue r :: rest →
    decode r = .ok i → i.wellFormed = true → step s = exec i { s with inbox := rest })

/-- A table word that decodes is what the very next step performs (the words are numbered by notes/assumptions 5). -/
def Obligations.PresentedTableWordRuns : Prop :=
  ∀ (s : State) (nbits w : Nat) (i : Instr), decodeTableWord nbits w = some i →
    step (s.withFetchWord nbits w) = exec i s

/-- 30_encoding.md R55: the reserved selects, with any operands, are no operation; the step refuses them. -/
def Obligations.ReservedSelectIsRefused : Prop :=
  ∀ (s : State) (op : BitVec 4) (operands : List Operand) (rest : List Event),
    (op = 0b0000 ∨ 0b1010 ≤ op.toNat) → s.inbox = .issue (.op ⟨op, operands⟩) :: rest →
    decode (.op ⟨op, operands⟩) = .error (.reservedSelect op) ∧
    step s = .refused (.notAnOperation (.reservedSelect op))

/-- Every operation is enabled in every state (70_reset_and_hazards.md, a run; for the catalog commands by
notes/assumptions 3; the responses as data are notes/assumptions 6): it ends in a next state, answers
exactly one response, and neither presents operations nor reads the link's side. -/
def Obligations.EveryOperationAnswersOnce : Prop :=
  ∀ (i : Instr) (s : State), ∃ (t : State) (r : Response), exec i s = .next t ∧
    t.responses = s.responses ++ [r] ∧ t.inbox = s.inbox ∧ t.txTaken = s.txTaken

/-- A run whose presentations are all operations never ends: it has a next state after any number of steps. -/
def Obligations.RunNeverStops : Prop :=
  ∀ (n : Nat) (s : State), s.WellPresented →
    ∃ t : State, Host.Core.run Sys2Proof.core n s = .next t ∧ t.WellPresented

/-- A run over encoded operations performs them one after the other, each from the state that the one before it left
(the total order of 20_memory.md): as many steps as there are operations are `execAll` of them. The operations as a
list in `inbox` (notes/assumptions 1), and the catalog commands among them with a wire frame as their encoding
(notes/assumptions 3 and 4), are the model's. -/
def Obligations.RunPerformsOperationsInOrder : Prop :=
  ∀ (is : List Instr) (rest : List Event) (s : State), (∀ i ∈ is, i.wellFormed = true) →
    s.inbox = is.map (fun i => Event.issue (encode i)) ++ rest →
    Host.Core.run Sys2Proof.core is.length s = execAll is { s with inbox := rest }

/-- The read and write table of 20_memory.md R39, with ENCODE's row for the catalog commands (notes/assumptions 3). An
operation changes only what its row says it writes or emits, and
its response and its writes are the same from any two states that agree on what its row says it reads. -/
def Obligations.ReadWriteTable : Prop :=
  ∀ (i : Instr) (s s' : State),
    ((access i).readsCrc = true → s.crc = s'.crc) →
    ((access i).readsRxState = true → s.rxState = s'.rxState) →
    ((access i).readsRxBuf = true → s.rxBuf = s'.rxBuf) →
    ∃ (t t' : State) (r : Response) (emitted : Bytes), exec i s = .next t ∧ exec i s' = .next t' ∧
      t.responses = s.responses ++ [r] ∧ t'.responses = s'.responses ++ [r] ∧
      t.tx = s.tx ++ emitted ∧ t'.tx = s'.tx ++ emitted ∧
      ((access i).emits = false → emitted = []) ∧ ((∃ e, r = .err e) → emitted = []) ∧
      ((access i).writesCrc = true → t.crc = t'.crc) ∧
      ((access i).writesCrc = false → t.crc = s.crc) ∧
      ((access i).writesRx = true → t.rxState = t'.rxState ∧ t.rxBuf = t'.rxBuf) ∧
      ((access i).writesRx = false → t.rxState = s.rxState ∧ t.rxBuf = s.rxBuf)

/-- Any two runs, however the operations of the issuers interleave, end with the same CRC register if they hold the
same CRC_INIT and CRC_UPDATE operations in the same order, with the same assembler if they hold the same receive
operations, and with the same transmit stream if they hold the same sends. -/
def Obligations.UnitsAreIndependentUnderInterleaving : Prop :=
  ∀ (is is' : List Instr) (s t t' : State), execAll is s = .next t → execAll is' s = .next t' →
    (is.filter (fun i => (access i).writesCrc) = is'.filter (fun i => (access i).writesCrc) → t.crc = t'.crc) ∧
    (is.filter (fun i => (access i).writesRx) = is'.filter (fun i => (access i).writesRx) →
      t.rxState = t'.rxState ∧ t.rxBuf = t'.rxBuf) ∧
    (is.filter (fun i => (access i).emits) = is'.filter (fun i => (access i).emits) → t.tx = t'.tx)

/-- The assembler's invariant of 10_state.md R20: every step keeps it, reset establishes it, under it the buffer holds
at most 262 bytes, and a 263rd byte completes a frame with LEN = 255. Steps of the catalog commands are among them
(notes/assumptions 3). -/
def Obligations.AssemblerInvariantKept : Prop :=
  State.reset.RxOk ∧
  (∀ s t : State, s.RxOk → step s = .next t → t.RxOk) ∧
  (∀ s : State, s.RxOk →
    (s.rxState = .hunt → s.rxBuf = []) ∧
    (s.rxState = .collect → 1 ≤ s.rxBuf.length ∧ s.rxBuf[0]? = some 0x24 ∧
      ∀ len : Byte, s.rxBuf[4]? = some len → s.rxBuf.length < (len.setWidth 16 + 8#16).toNat) ∧
    s.rxBuf.length ≤ 262) ∧
  (∀ (s : State) (b : Byte), s.RxOk → s.rxBuf.length = 262 → s.rxBuf[4]? = some 0xFF ∧
    exec (.rxByte b) s = .next { s with
      rxState := .hunt, rxBuf := [], responses := s.responses ++ [.complete (s.rxBuf ++ [b])] })

/-- Every step keeps the whole invariant: the assembler's (10_state.md R20), the transmit stream as the frames answered
and nothing else (20_memory.md R41, with the layout of 30_encoding.md R47), the completed buffers (43_rx_assembler.md
R87), the Frame records answered, with a payload of at most 255 bytes (00_scope.md R13, from DECODE, 42_frame_decoder.md
R76), and the transmit link's count, which passes no byte that was not emitted (10_state.md R21). Steps of the catalog
commands are among them (notes/assumptions 3), and the log of responses and the link's count are the model's own fields
(notes/assumptions 6 and 7). -/
def Obligations.StepKeepsInvariant : Prop :=
  ∀ s t : State, s.Inv → step s = .next t → t.Inv

/-- The invariant holds at reset (10_state.md R29; the model's own fields start by notes/assumptions 11). -/
def Obligations.ResetMeetsInvariant : Prop := State.reset.Inv

/-- Along every run from a good state, with any events whatever, the transmit stream stays the frames of the successful
sends, in their order, with no byte added, dropped or moved (20_memory.md R41; the catalog commands are sends by
notes/assumptions 3). -/
def Obligations.WireOrderIsSendOrder : Prop :=
  ∀ (n : Nat) (s t : State), s.Inv → Host.Core.run Sys2Proof.core n s = .next t →
    t.tx = (framesSent t.responses).flatten ∧
    (∃ later : List Response, t.responses = s.responses ++ later ∧ t.tx = s.tx ++ (framesSent later).flatten) ∧
    (∀ f ∈ framesSent t.responses, ∃ (dst src cmd : Byte) (p : Bytes), p.length ≤ 255 ∧
      f = Claims.wireFrame dst src cmd p)

/-- The transmit link takes the bytes of `tx` from the front, in order, one at a time, and changes nothing in it. -/
def Obligations.LinkTakesBytesInOrder : Prop :=
  ∀ (s : State) (rest : List Event), s.inbox = .txTake :: rest →
    ∃ t : State, step s = .next t ∧ t.tx = s.tx ∧ t.taken = s.tx.take (s.txTaken + 1) ∧
      (∀ b : Byte, s.tx[s.txTaken]? = some b → t.taken = s.taken ++ [b]) ∧ t.responses = s.responses

/-- An operation that raises an error writes no state and emits nothing, and the next operation runs as if the failed
one had not been issued (60_exceptions.md R102; for the catalog commands too, by notes/assumptions 3). -/
def Obligations.ErrorHasNoEffect : Prop :=
  ∀ (i : Instr) (s t : State) (e : BlockError), exec i s = .next t → t.responses = s.responses ++ [.err e] →
    t = Claims.answered s (.err e) ∧
    ∀ (j : Instr) (u : State), exec j s = .next u → ∃ r : Response, u.responses = s.responses ++ [r] ∧
      exec j t = .next { u with responses := t.responses ++ [r] }

/-- Which operation raises which error (the table of 60_exceptions.md; the catalog commands raise as ENCODE does, by
notes/assumptions 3), and its code and retry class. -/
def Obligations.ErrorsByOperation : Prop :=
  ∀ (i : Instr) (s t : State) (e : BlockError), exec i s = .next t → t.responses = s.responses ++ [.err e] →
    ((access i).emits = true ∧ e.code = 1 ∧ e.retryable = false) ∨
    ((∃ buf, i = .decode buf) ∧ (e.code = 2 ∨ e.code = 3 ∨ e.code = 4) ∧ e.retryable = true) ∨
    ((∃ d c k rsp, i = .respCheck d c k rsp) ∧ e.code = 5 ∧ e.retryable = true)

/-- 60_exceptions.md R101: the retry class of every error kind, the host's included. -/
def Obligations.RetryClasses : Prop :=
  (∀ n, (BlockError.encodeError n).retryable = false) ∧ (∀ m, (BlockError.malformedFrame m).retryable = true) ∧
  (∀ d a, (BlockError.lengthMismatch d a).retryable = true) ∧
  (∀ r c, (BlockError.checksumMismatch r c).retryable = true) ∧
  (∀ w g x, (BlockError.unexpectedResponse w g x).retryable = true) ∧
  HostError.timeout.retryable = true ∧ HostError.communicationError.retryable = false ∧
  HostError.rangeError.retryable = false

/-- CRC_INIT and RX_FLUSH, in either order, put the registers back to their reset values; no operation clears `tx`
(70_reset_and_hazards.md R115; the catalog commands too, by notes/assumptions 3). -/
def Obligations.RegistersResetByInitAndFlush : Prop :=
  (∀ (s : State) (is : List Instr), is = [.crcInit, .rxFlush] ∨ is = [.rxFlush, .crcInit] →
    ∃ t : State, execAll is s = .next t ∧ t.crc = State.reset.crc ∧ t.rxState = State.reset.rxState ∧
      t.rxBuf = State.reset.rxBuf ∧ t.tx = s.tx) ∧
  (∀ (i : Instr) (s t : State), exec i s = .next t → s.tx <+: t.tx)

-- Encodings ---------------------------------------------------------------------------------------------------

/-- Decoding what the encoder writes gives the instruction back, for every well-formed instruction with every operand
(the wire form of the catalog rows is notes/assumptions 4). -/
def Obligations.DecodeEncodeRoundTrip : Prop :=
  ∀ i : Instr, i.wellFormed = true → decode (encode i) = .ok i

/-- What decodes is well-formed and has one meaning: it is the encoding of that instruction, or the wire frame of a
command id outside the catalog, which runs as ENCODE (notes/assumptions 4). -/
def Obligations.DecodedIsTheEncoding : Prop :=
  ∀ (r : Request) (i : Instr), decode r = .ok i → i.wellFormed = true ∧
    (encode i = r ∨ ∃ (dst src cmd : Byte) (p : Bytes), r = .wire (Claims.wireFrame dst src cmd p) ∧
      p.length ≤ 255 ∧ cmd ∉ [0x10#8, 0x20, 0x21, 0x22, 0x25, 0x26, 0x34] ∧ i = .encode dst src cmd p)

/-- Words written out: records with selects of 30_encoding.md, an example request frame of 44_command_catalog.md, and
two words of the opcode table. That a wire frame presented is a command is the model's choice (notes/assumptions 4, with
the meaning of notes/assumptions 3), and so is the numbering of the table's words (notes/assumptions 5). -/
def Obligations.WrittenWordsDecode : Prop :=
  decode (.op ⟨0b0010, [.byte 0x11]⟩) = .ok (.crcUpdate 0x11) ∧
  decode (.op ⟨0b0101, [.byte 0x11, .byte 0x01, .byte 0x10, .seq []]⟩) = .ok (.encode 0x11 0x01 0x10 []) ∧
  decode (.op ⟨0b1000, [.byte 0x24]⟩) = .ok (.rxByte 0x24) ∧
  decode (.wire [0x24, 0x11, 0x01, 0x34, 0x00, 0x3A, 0xCA, 0x0A]) = .ok (.getStatus 0x11 0x01 []) ∧
  decodeTableWord 8 0x09 = some .rxFlush ∧ decodeTableWord 8 0x25 = some (.start 0x00 0x00 [])

/-- A wire frame is named by its CMD byte, whatever its other fields: the seven catalog values, and ENCODE for the 249
others (44_command_catalog.md; the wire form is notes/assumptions 4). -/
def Obligations.WireFrameNamedByCommandByte : Prop :=
  ∀ (dst src cmd : Byte) (p : Bytes), p.length ≤ 255 →
    decode (.wire (Claims.wireFrame dst src cmd p)) = .ok (
      if cmd = 0x10 then .whoAmI dst src p else if cmd = 0x20 then .getTemperature dst src p
      else if cmd = 0x21 then .getDipoleMoment dst src p else if cmd = 0x22 then .setDipoleMomentSetpoint dst src p
      else if cmd = 0x25 then .start dst src p else if cmd = 0x26 then .stop dst src p
      else if cmd = 0x34 then .getStatus dst src p else .encode dst src cmd p)

-- CRC unit ----------------------------------------------------------------------------------------------------

/-- 40_crc.md R66. -/
def Obligations.CrcInitClearsRegister : Prop :=
  encode .crcInit = .op ⟨0b0001, []⟩ ∧
  ∀ s : State, exec .crcInit s = .next { s with crc := 0x00, responses := s.responses ++ [.ok .unit] }

/-- 40_crc.md R67, with the byte step of R61. -/
def Obligations.CrcUpdateFeedsByte : Prop :=
  ∀ (b : Byte) (s : State), encode (.crcUpdate b) = .op ⟨0b0010, [.byte b]⟩ ∧
    exec (.crcUpdate b) s = .next { s with
      crc := BitVec.ofNat 8 (Claims.loopStep s.crc.toNat b.toNat)
      responses := s.responses ++ [.ok .unit] }

/-- 40_crc.md R68. -/
def Obligations.CrcReadAnswersRegister : Prop :=
  encode .crcRead = .op ⟨0b0011, []⟩ ∧
  ∀ s : State, exec .crcRead s = .next { s with responses := s.responses ++ [.ok (.byte s.crc)] }

/-- 40_crc.md R69 with R62: the checksum of the spec's own loop, and no other change. -/
def Obligations.CrcComputeAnswersChecksum : Prop :=
  ∀ (data : Bytes) (s : State), encode (.crcCompute data) = .op ⟨0b0100, [.seq data]⟩ ∧
    exec (.crcCompute data) s = .next (Claims.answered s (.ok (.byte (BitVec.ofNat 8 (Claims.loopCrc data)))))

/-- 40_crc.md R61: the model's byte step is the spec's loop, on the numbers of register and byte. -/
def Obligations.ByteStepIsTheLoop : Prop :=
  ∀ c b : Byte, (crcStep c b).toNat = Claims.loopStep c.toNat b.toNat

/-- 40_crc.md R64: the table form. -/
def Obligations.ByteStepIsTheTable : Prop :=
  (∀ c b : Byte, Claims.crcTable[(c ^^^ b).toNat]? = some (crcStep c b)) ∧
  (∀ i : Byte, Claims.crcTable[i.toNat]? = some (crcStep 0x00 i))

/-- 40_crc.md R60 and R63: the checksum is the remainder of M(x)·x^8 by G(x), and G(x) is `0xEB` with x^8 implicit. -/
def Obligations.ChecksumIsPolynomialRemainder : Prop :=
  Claims.generator = Polynomial.X ^ 8 + Claims.bytePoly 0xEB ∧
  ∀ m : Bytes, Claims.bytePoly (crc8 m) = (Claims.seqPoly m * Polynomial.X ^ 8) %ₘ Claims.generator

/-- Laws 1 and 2 of the checksum: the empty sequence, leading zeros, and sequences of zeros. -/
def Obligations.LeadingZerosInvisible : Prop :=
  crc8 [] = 0x00 ∧ (∀ m : Bytes, crc8 (0x00 :: m) = crc8 m) ∧ ∀ n : Nat, crc8 (List.replicate n 0x00) = 0x00

/-- Law 3 of the checksum: linear over sequences of one length. -/
def Obligations.ChecksumIsLinear : Prop :=
  ∀ a b : Bytes, a.length = b.length → crc8 (List.zipWith (· ^^^ ·) a b) = crc8 a ^^^ crc8 b

/-- Law 4 of the checksum: a sequence followed by its checksum has checksum 0. -/
def Obligations.ChecksumResidueIsZero : Prop := ∀ m : Bytes, crc8 (m ++ [crc8 m]) = 0x00

/-- Law 5 of the checksum: a single flipped bit changes it. -/
def Obligations.SingleBitChangesChecksum : Prop :=
  ∀ (m : Bytes) (i k : Nat), i < m.length → k < 8 → crc8 (Claims.flipBit m i k) ≠ crc8 m

/-- CRC_INIT, the bytes of m, CRC_READ answer `crc8(m)`, with any operations between that are neither CRC_INIT nor
CRC_UPDATE (40_crc.md R70; that the catalog commands write no CRC register is notes/assumptions 3). -/
def Obligations.IncrementalAgreesWithPure : Prop :=
  ∀ (m : Bytes) (is : List Instr) (s : State), is.filter (fun i => (access i).writesCrc) = crcBytes m →
    ∃ t : State, execAll ([.crcInit] ++ is ++ [.crcRead]) s = .next t ∧
      t.responses.getLast? = some (.ok (.byte (crc8 m)))

/-- Only CRC_INIT and CRC_UPDATE write the CRC register; any other value of it changes no response and no other state
of an operation but CRC_READ and CRC_UPDATE (10_state.md R17; for the catalog commands by notes/assumptions 3). -/
def Obligations.OnlyCrcOperationsUseRegister : Prop :=
  ∀ (i : Instr) (s : State),
    (i ≠ .crcInit → (∀ b, i ≠ .crcUpdate b) → ∃ t, exec i s = .next t ∧ t.crc = s.crc) ∧
    (i ≠ .crcRead → (∀ b, i ≠ .crcUpdate b) → ∀ c : Byte, ∃ t t', exec i s = .next t ∧
      exec i { s with crc := c } = .next t' ∧ { t' with crc := t.crc } = t)

-- Frame encoder and catalog -----------------------------------------------------------------------------------

/-- 41_frame_encoder.md R71. -/
def Obligations.EncodeSendsFrame : Prop :=
  ∀ (dst src cmd : Byte) (p : Bytes) (s : State),
    encode (.encode dst src cmd p) = .op ⟨0b0101, [.byte dst, .byte src, .byte cmd, .seq p]⟩ ∧
    (p.length ≤ 255 → exec (.encode dst src cmd p) s = .next (Claims.sent dst src cmd p s)) ∧
    (255 < p.length → exec (.encode dst src cmd p) s = .next (Claims.answered s (.err (.encodeError p.length))))

/-- 41_frame_encoder.md R72 (the spec derives it from R71). -/
def Obligations.EncodedFrameLayout : Prop :=
  ∀ (dst src cmd : Byte) (p : Bytes) (s : State), p.length ≤ 255 →
    ∃ (f : Bytes) (len : Byte) (t : State), exec (.encode dst src cmd p) s = .next t ∧ t.tx = s.tx ++ f ∧
      f.length = p.length + 8 ∧ f[4]? = some len ∧ len.toNat = p.length ∧ (f.drop 5).take p.length = p ∧
      f[6 + p.length]? = some (crc8 ((f.drop 1).take (4 + p.length)))

/-- 41_frame_encoder.md R74: issued again, from whatever state, ENCODE emits and answers the same. -/
def Obligations.RetryEmitsSameBytes : Prop :=
  ∀ (dst src cmd : Byte) (p : Bytes) (s s' : State), ∃ (t t' : State) (f : Bytes) (r : Response),
    exec (.encode dst src cmd p) s = .next t ∧ exec (.encode dst src cmd p) s' = .next t' ∧
    t.tx = s.tx ++ f ∧ t'.tx = s'.tx ++ f ∧ t.responses = s.responses ++ [r] ∧ t'.responses = s'.responses ++ [r]

/-- 41_frame_encoder.md R75: what ENCODE answers, DECODE reads back, from any state. -/
def Obligations.EncodeDecodeRoundTrip : Prop :=
  ∀ (dst src cmd : Byte) (p : Bytes), p.length ≤ 255 → ∀ s s' : State,
    ∃ (t : State) (f : Bytes) (sum : Byte), exec (.encode dst src cmd p) s = .next t ∧
      t.responses = s.responses ++ [.ok (.bytes f)] ∧ f[6 + p.length]? = some sum ∧
      exec (.decode f) s' = .next (Claims.answered s' (.ok (.frame ⟨dst, src, cmd, p, sum⟩)))

/-- The catalog commands WHO_AM_I, GET_TEMPERATURE, GET_DIPOLE_MOMENT, SET_DIPOLE_MOMENT_SETPOINT, START, STOP and
GET_STATUS send their request frame, with the CMD byte of the catalog, and change nothing else (their meaning as the
ENCODE that each rule writes is notes/assumptions 3). -/
def Obligations.CommandsSendRequestFrame : Prop :=
  ∀ (dst src : Byte) (p : Bytes) (s : State), p.length ≤ 255 →
    exec (.whoAmI dst src p) s = .next (Claims.sent dst src 0x10 p s) ∧
    exec (.getTemperature dst src p) s = .next (Claims.sent dst src 0x20 p s) ∧
    exec (.getDipoleMoment dst src p) s = .next (Claims.sent dst src 0x21 p s) ∧
    exec (.setDipoleMomentSetpoint dst src p) s = .next (Claims.sent dst src 0x22 p s) ∧
    exec (.start dst src p) s = .next (Claims.sent dst src 0x25 p s) ∧
    exec (.stop dst src p) s = .next (Claims.sent dst src 0x26 p s) ∧
    exec (.getStatus dst src p) s = .next (Claims.sent dst src 0x34 p s)

/-- With a payload above 255 bytes each of the seven commands raises EncodeError and has no other effect
(notes/assumptions 3). -/
def Obligations.CommandsRejectLongPayload : Prop :=
  ∀ (dst src : Byte) (p : Bytes) (s : State), 255 < p.length →
    exec (.whoAmI dst src p) s = .next (Claims.answered s (.err (.encodeError p.length))) ∧
    exec (.getTemperature dst src p) s = .next (Claims.answered s (.err (.encodeError p.length))) ∧
    exec (.getDipoleMoment dst src p) s = .next (Claims.answered s (.err (.encodeError p.length))) ∧
    exec (.setDipoleMomentSetpoint dst src p) s = .next (Claims.answered s (.err (.encodeError p.length))) ∧
    exec (.start dst src p) s = .next (Claims.answered s (.err (.encodeError p.length))) ∧
    exec (.stop dst src p) s = .next (Claims.answered s (.err (.encodeError p.length))) ∧
    exec (.getStatus dst src p) s = .next (Claims.answered s (.err (.encodeError p.length)))

-- Frame decoder and response checker --------------------------------------------------------------------------

/-- 42_frame_decoder.md R76 and R78: the checks in order, and the Frame of a buffer that passes them all. -/
def Obligations.DecodeReportsFirstFailingCheck : Prop :=
  ∀ (buf : Bytes) (s : State), encode (.decode buf) = .op ⟨0b0110, [.seq buf]⟩ ∧
    ∃ r : Response, exec (.decode buf) s = .next (Claims.answered s r) ∧
      (buf.length < 8 → r = .err (.malformedFrame (.tooShort buf.length))) ∧
      (8 ≤ buf.length → ∀ start dst src cmd len sep sum stop : Byte,
        buf[0]? = some start → buf[1]? = some dst → buf[2]? = some src → buf[3]? = some cmd → buf[4]? = some len →
        buf[buf.length - 3]? = some sep → buf[buf.length - 2]? = some sum → buf[buf.length - 1]? = some stop →
        r = if start ≠ 0x24 then .err (.malformedFrame (.badStart start))
          else if stop ≠ 0x0A then .err (.malformedFrame (.badEnd stop))
          else if sep ≠ 0x3A then .err (.malformedFrame (.badSeparator sep))
          else if crc8 ((buf.drop 1).take (buf.length - 4)) ≠ sum then
            .err (.checksumMismatch sum (crc8 ((buf.drop 1).take (buf.length - 4))))
          else if len.toNat ≠ buf.length - 8 then .err (.lengthMismatch len (buf.length - 8))
          else .ok (.frame ⟨dst, src, cmd, (buf.drop 5).take len.toNat, sum⟩))

/-- 42_frame_decoder.md R77: DECODE accepts exactly the buffers that meet all five requirements, with the separator
and the checksum at the positions that LEN implies. -/
def Obligations.DecodeAcceptsExactlyFrames : Prop :=
  ∀ (buf : Bytes) (s : State),
    (∃ f : Frame, exec (.decode buf) s = .next (Claims.answered s (.ok (.frame f)))) ↔
    (∃ len : Byte, buf[0]? = some 0x24 ∧ buf[4]? = some len ∧ buf[5 + len.toNat]? = some 0x3A ∧
      buf[buf.length - 1]? = some 0x0A ∧ buf.length - 8 = len.toNat ∧ 8 ≤ buf.length ∧
      buf[6 + len.toNat]? = some (crc8 ((buf.drop 1).take (4 + len.toNat))))

/-- 42_frame_decoder.md R79: one flipped bit of an accepted buffer, by the byte it stands in. -/
def Obligations.SingleBitErrorIsDetected : Prop :=
  ∀ (buf : Bytes) (s : State) (f : Frame) (i k : Nat),
    exec (.decode buf) s = .next (Claims.answered s (.ok (.frame f))) → i < buf.length → k < 8 →
    ∃ e : BlockError, exec (.decode (Claims.flipBit buf i k)) s = .next (Claims.answered s (.err e)) ∧
      (i = 0 → ∃ b, e = .malformedFrame (.badStart b)) ∧
      (i = buf.length - 1 → ∃ b, e = .malformedFrame (.badEnd b)) ∧
      (i = buf.length - 3 → ∃ b, e = .malformedFrame (.badSeparator b)) ∧
      (1 ≤ i ∧ i ≤ buf.length - 4 ∨ i = buf.length - 2 → ∃ received computed, e = .checksumMismatch received computed)

/-- When DECODE raises LengthMismatch: the delimiters are in place and the CRC matches the bytes present, and LEN
disagrees with the buffer's length. -/
def Obligations.LengthMismatchExactlyWhen : Prop :=
  ∀ (buf : Bytes) (s : State) (declared : Byte) (actual : Nat),
    exec (.decode buf) s = .next (Claims.answered s (.err (.lengthMismatch declared actual))) ↔
    (8 ≤ buf.length ∧ buf[0]? = some 0x24 ∧ buf[buf.length - 1]? = some 0x0A ∧ buf[buf.length - 3]? = some 0x3A ∧
      buf[buf.length - 2]? = some (crc8 ((buf.drop 1).take (buf.length - 4))) ∧ buf[4]? = some declared ∧
      actual = buf.length - 8 ∧ declared.toNat ≠ actual)

/-- 42_frame_decoder.md R82. -/
def Obligations.RespCheckMatchesSwappedAddresses : Prop :=
  ∀ (reqDst reqSrc reqCmd : Byte) (rsp : Frame) (s : State),
    encode (.respCheck reqDst reqSrc reqCmd rsp)
      = .op ⟨0b0111, [.byte reqDst, .byte reqSrc, .byte reqCmd, .frame rsp]⟩ ∧
    exec (.respCheck reqDst reqSrc reqCmd rsp) s = .next (Claims.answered s (
      if rsp.dst ≠ reqSrc then .err (.unexpectedResponse .wrongDestination rsp.dst reqSrc)
      else if rsp.src ≠ reqDst then .err (.unexpectedResponse .wrongSource rsp.src reqDst)
      else if rsp.cmd ≠ reqCmd then .err (.unexpectedResponse .wrongCommand rsp.cmd reqCmd)
      else .ok .unit))

/-- 42_frame_decoder.md R83: a response is accepted exactly when DECODE and then RESP_CHECK answer Ok, and no buffer
whose CRC byte differs from the recomputed CRC is decoded to a Frame for RESP_CHECK to see. -/
def Obligations.AcceptanceIsDecodeThenCheck : Prop :=
  (∀ (reqDst reqSrc reqCmd : Byte) (buf : Bytes) (rsp : Frame) (s : State),
    accepted reqDst reqSrc reqCmd buf = some rsp ↔
    (exec (.decode buf) s = .next (Claims.answered s (.ok (.frame rsp))) ∧
      exec (.respCheck reqDst reqSrc reqCmd rsp) s = .next (Claims.answered s (.ok .unit)))) ∧
  (∀ (buf : Bytes) (rsp : Frame) (s : State), exec (.decode buf) s = .next (Claims.answered s (.ok (.frame rsp))) →
    buf[buf.length - 2]? = some (crc8 ((buf.drop 1).take (buf.length - 4))))

/-- The host's "check response" interaction: the operations it issues end in Ok exactly when the response is accepted
(the operations issued are the table of 70_reset_and_hazards.md). -/
def Obligations.CheckResponseInteraction : Prop :=
  ∀ (dev host cmd : Byte) (buf : Bytes) (s : State),
    ∃ t : State, execAll (interactionIssues (.checkResponse dev host cmd buf)) s = .next t ∧
      (t.responses.getLast? = some (.ok .unit) ↔ ∃ rsp, accepted dev host cmd buf = some rsp)

/-- An echo of a request passes RESP_CHECK exactly when its addresses are equal (the hazard of
70_reset_and_hazards.md R124). -/
def Obligations.EchoPassesOnlyEqualAddresses : Prop :=
  ∀ (dst src cmd : Byte) (p : Bytes) (s : State), p.length ≤ 255 →
    ∃ echo : Frame, parseFrame (Claims.wireFrame dst src cmd p) = .ok echo ∧
      (dst = src → exec (.respCheck dst src cmd echo) s = .next (Claims.answered s (.ok .unit))) ∧
      (dst ≠ src → exec (.respCheck dst src cmd echo) s
        = .next (Claims.answered s (.err (.unexpectedResponse .wrongDestination dst src))))

-- Receive assembler -------------------------------------------------------------------------------------------

/-- 43_rx_assembler.md R85, branch by branch. -/
def Obligations.RxByteAssembles : Prop :=
  ∀ (b : Byte) (s : State), encode (.rxByte b) = .op ⟨0b1000, [.byte b]⟩ ∧
    (s.rxState = .hunt → b = 0x24 →
      exec (.rxByte b) s = .next { s with rxState := .collect, rxBuf := [b], responses := s.responses ++ [.pending] }) ∧
    (s.rxState = .hunt → b ≠ 0x24 → exec (.rxByte b) s = .next (Claims.answered s .discarded)) ∧
    (s.rxState = .collect →
      (∃ len : Byte, 5 ≤ s.rxBuf.length + 1 ∧ (s.rxBuf ++ [b])[4]? = some len ∧
        s.rxBuf.length + 1 = (len.setWidth 16 + 8#16).toNat) →
      exec (.rxByte b) s = .next { s with
        rxState := .hunt, rxBuf := [], responses := s.responses ++ [.complete (s.rxBuf ++ [b])] }) ∧
    (s.rxState = .collect →
      ¬ (∃ len : Byte, 5 ≤ s.rxBuf.length + 1 ∧ (s.rxBuf ++ [b])[4]? = some len ∧
        s.rxBuf.length + 1 = (len.setWidth 16 + 8#16).toNat) →
      exec (.rxByte b) s = .next { s with rxBuf := s.rxBuf ++ [b], responses := s.responses ++ [.pending] })

/-- 43_rx_assembler.md R86. -/
def Obligations.RxFlushDropsPartialFrame : Prop :=
  encode .rxFlush = .op ⟨0b1001, []⟩ ∧
  ∀ s : State, exec .rxFlush s = .next { s with
    rxState := .hunt, rxBuf := [], responses := s.responses ++ [.ok (.count s.rxBuf.length)] }

/-- What a completed buffer looks like, and the errors DECODE cannot raise for it (43_rx_assembler.md R87). The
premise is the assembler's invariant, which every step keeps. -/
def Obligations.CompletedBufferShape : Prop :=
  ∀ (b : Byte) (s t : State) (buf : Bytes), s.RxOk → exec (.rxByte b) s = .next t →
    t.responses = s.responses ++ [.complete buf] →
    (∃ len : Byte, buf[4]? = some len ∧ buf.length = (len.setWidth 16 + 8#16).toNat) ∧ buf[0]? = some 0x24 ∧
    8 ≤ buf.length ∧ buf.length ≤ 263 ∧
    ∀ u : State, ∃ r : Response, exec (.decode buf) u = .next (Claims.answered u r) ∧
      ((∃ f, r = .ok (.frame f)) ∨ (∃ x, r = .err (.malformedFrame (.badEnd x))) ∨
        (∃ x, r = .err (.malformedFrame (.badSeparator x))) ∨ ∃ x y, r = .err (.checksumMismatch x y))

/-- 43_rx_assembler.md R88: an encoder's output fed to the assembler in HUNT comes back whole. -/
def Obligations.AssemblerReturnsEncodedFrame : Prop :=
  ∀ (dst src cmd : Byte) (p : Bytes) (s u v : State) (f : Bytes), s.rxState = .hunt →
    exec (.encode dst src cmd p) u = .next v → v.responses = u.responses ++ [.ok (.bytes f)] →
    execAll (rxStream f) s = .next { s with
      rxBuf := []
      responses := s.responses ++ List.replicate (f.length - 1) .pending ++ [.complete f] }

/-- After RX_FLUSH, from whatever stale state, and after junk that holds no start byte, each byte of which is
discarded, a frame assembles exactly. -/
def Obligations.FlushAndJunkThenFrame : Prop :=
  ∀ (dst src cmd : Byte) (p junk : Bytes) (s : State), p.length ≤ 255 → (∀ b ∈ junk, b ≠ 0x24) →
    execAll ([.rxFlush] ++ rxStream junk ++ rxStream (Claims.wireFrame dst src cmd p)) s = .next { s with
      rxState := .hunt
      rxBuf := []
      responses := s.responses ++ [.ok (.count s.rxBuf.length)] ++ List.replicate junk.length .discarded
        ++ List.replicate (p.length + 7) .pending ++ [.complete (Claims.wireFrame dst src cmd p)] }

/-- The single-bit guarantee of DECODE does not hold through the assembler: for some frame and some flipped bit of its
LEN byte, the bytes fed to the assembler from reset complete a buffer that DECODE accepts with another payload. -/
def Obligations.LengthFlipDefeatsAssembler : Prop :=
  ∃ (dst src cmd : Byte) (p : Bytes) (k : Nat) (t : State) (buf : Bytes) (f : Frame), p.length ≤ 255 ∧ k < 8 ∧
    execAll (rxStream (Claims.flipBit (Claims.wireFrame dst src cmd p) 4 k)) State.reset = .next t ∧
    Response.complete buf ∈ t.responses ∧ parseFrame buf = .ok f ∧ f.payload ≠ p

-- Transactions -----------------------------------------------------------------------------------------------

/-- A transaction of the host (its request, the response side of each attempt, its retries) completes. It sends the
command's request once for each attempt, as long as no response has been accepted, and ends in Ok exactly when a reply
is accepted. With a payload above 255 bytes it is the one EncodeError. A keep-alive tick is one with GET_STATUS, a disconnect one with STOP, a discovery one with WHO_AM_I for
each swept address. The operations as lists are the model's (notes/assumptions 16), and so is the request as a catalog
command (notes/assumptions 3). -/
def Obligations.TransactionResendsUntilAccepted : Prop :=
  (∀ (c : Command) (dev host : Address) (p : Bytes) (replies : Replies) (s : State), p.length ≤ 255 →
    ∃ t : State, execAll (interactionIssues (.transaction c dev host p replies)) s = .next t ∧
      t.crc = s.crc ∧
      t.tx = s.tx ++ (List.replicate
        (min (replies.retries.length + 1)
          ((replies.first :: replies.retries).findIdx (replyAccepted dev host (cmdId c)) + 1))
        (Claims.wireFrame dev host (cmdId c) p)).flatten ∧
      (t.responses.getLast? = some (.ok .unit) ↔
        ∃ buf rsp, Reply.complete buf ∈ replies.first :: replies.retries ∧
          accepted dev host (cmdId c) buf = some rsp)) ∧
  (∀ (c : Command) (dev host : Address) (p : Bytes) (replies : Replies) (s : State), 255 < p.length →
    execAll (interactionIssues (.transaction c dev host p replies)) s
      = .next (Claims.answered s (.err (.encodeError p.length)))) ∧
  (∀ (dev host : Address) (replies : Replies),
    interactionIssues (.keepAliveTick dev host replies)
      = interactionIssues (.transaction .getStatus dev host [] replies) ∧
    interactionIssues (.disconnect dev host replies)
      = interactionIssues (.transaction .stop dev host [] replies)) ∧
  (∀ (host : Address) (probes : List Probe), interactionIssues (.discover host probes)
    = (probes.map fun q => interactionIssues (.transaction .whoAmI q.address host [] q.replies)).flatten)
end

