-- ==== Sys2Proof/Laws/Crc.lean ====
section
/-! SUPPORT. What the checksum functions do: they are linear, and a byte step is determined by its effect on one byte. -/

namespace Sys2Proof.Machine

@[simp] theorem crcInit_eq : Config.crcInit = 0#8 := rfl
@[simp] theorem crcPoly_eq : Config.crcPoly = 0xEB#8 := rfl
@[simp] theorem crcXorOut_eq : Config.crcXorOut = 0#8 := rfl

/-- Nothing is reflected (R6). -/
@[simp] theorem reflectIf_crcRefIn (v : Checksum) : reflectIf Config.crcRefIn v = v := rfl
@[simp] theorem reflectIf_crcRefOut (v : Checksum) : reflectIf Config.crcRefOut v = v := rfl

/-- The register is shown as it is (R68). -/
@[simp] theorem crcResult_eq (c : Checksum) : crcResult c = c := by simp [crcResult]

/-- The byte step of R61, its parameters put in. -/
theorem crcStep_eq (c : Checksum) (b : Byte) : crcStep c b = crcShift^[8] (c ^^^ b) := rfl

/-- The register starts at 0 and nothing is XORed in at the end (R62). -/
theorem crc8_eq_foldl (m : Bytes) : crc8 m = m.foldl crcStep 0#8 := by simp [crc8]

@[simp] theorem crc8_nil : crc8 [] = 0#8 := rfl

theorem crc8_append_singleton (m : Bytes) (b : Byte) : crc8 (m ++ [b]) = crcStep (crc8 m) b := by
  simp [crc8_eq_foldl]

/-- The checksum of a sequence, continued from the register that an earlier part left (R70). -/
theorem crc8_append (m n : Bytes) : crc8 (m ++ n) = n.foldl crcStep (crc8 m) := by
  simp [crc8_eq_foldl]

/-- A round is linear over GF(2) (R64). -/
theorem crcShift_xor (a b : Byte) : crcShift (a ^^^ b) = crcShift a ^^^ crcShift b := by
  have e : ∀ p q : Bool, (if (p ^^ q) = true then Config.crcPoly else 0)
      = (if p = true then Config.crcPoly else 0) ^^^ (if q = true then Config.crcPoly else 0) := by decide
  have d : (a ^^^ b) <<< 1 = a <<< 1 ^^^ b <<< 1 := by
    ext i hi
    simp only [BitVec.getElem_shiftLeft, BitVec.getElem_xor]
    by_cases h : i < 1 <;> simp [h]
  rw [crcShift, crcShift, crcShift, BitVec.msb_xor, e, d]
  ac_rfl

theorem crcShift_iterate_xor (n : Nat) (a b : Byte) :
    crcShift^[n] (a ^^^ b) = crcShift^[n] a ^^^ crcShift^[n] b := by
  induction n generalizing a b with
  | zero => rfl
  | succ n ih => rw [Function.iterate_succ_apply, crcShift_xor, ih]; rfl

/-- A byte step is linear in register and byte together (R64). -/
theorem crcStep_xor (c d a b : Byte) : crcStep (c ^^^ d) (a ^^^ b) = crcStep c a ^^^ crcStep d b := by
  have e : c ^^^ d ^^^ (a ^^^ b) = c ^^^ a ^^^ (d ^^^ b) := by ac_rfl
  rw [crcStep_eq, e, crcShift_iterate_xor]; rfl

/-- A byte step sees only the XOR of the register and the byte (R64). -/
theorem crcStep_eq_zero_xor (c b : Byte) : crcStep c b = crcStep 0#8 (c ^^^ b) := by simp [crcStep_eq]

@[simp] theorem crcStep_zero_zero : crcStep 0#8 0#8 = 0#8 := by decide

theorem crcStep_self (c : Byte) : crcStep c c = 0#8 := by
  rw [crcStep_eq_zero_xor]; simp

/-- A round loses nothing: only 0 goes to 0. -/
theorem crcShift_eq_zero : ∀ t : Byte, crcShift t = 0#8 → t = 0#8 := by decide

theorem crcStep_zero_eq_zero (b : Byte) (h : crcStep 0#8 b = 0#8) : b = 0#8 := by
  have d : ∀ (n : Nat) (t : Byte), crcShift^[n] t = 0#8 → t = 0#8 := by
    intro n
    induction n with
    | zero => intro t ht; exact ht
    | succ n ih => intro t ht; exact crcShift_eq_zero t (ih _ ht)
  simpa [crcStep_eq] using d 8 (0#8 ^^^ b) h

end Sys2Proof.Machine
end

