-- ==== Sys2Proof/Laws/Frame.lean ====
section
/-! SUPPORT. What the frame functions do: the layout and length of a built frame, when a buffer is accepted, and the
parse of a built frame. -/

namespace Sys2Proof.Machine

@[simp] theorem maxPayload_eq : Config.maxPayload = 255 := rfl
@[simp] theorem frameOverhead_eq : Config.frameOverhead = 8 := rfl
@[simp] theorem minFrame_eq : Config.minFrame = 8 := rfl

/-- The natural-number length is the spec's 16-bit sum (30_encoding.md R51). -/
theorem frameLength_eq_zext16 (len : Byte) : (len.setWidth 16 + 8#16).toNat = frameLength len := by
  have h := len.isLt
  simp only [BitVec.toNat_add, BitVec.toNat_setWidth, BitVec.toNat_ofNat, frameLength, frameOverhead_eq]
  omega

theorem lenByte_toNat (n : Nat) (h : n ≤ 255) : (lenByte n).toNat = n := by
  simp only [lenByte, Config.lenWidth, BitVec.toNat_ofNat]; omega

@[simp] theorem frameBody_length (dst src cmd : Byte) (p : Bytes) : (frameBody dst src cmd p).length = p.length + 4 := by
  simp [frameBody]

/-- A frame is the payload and 8 bytes (30_encoding.md R48). -/
@[simp] theorem buildFrame_length (dst src cmd : Byte) (p : Bytes) : (buildFrame dst src cmd p).length = p.length + 8 := by
  simp [buildFrame]

theorem slice_append_mid (a b c : Bytes) : slice (a ++ b ++ c) a.length (a.length + b.length) = b := by
  simp [slice]

/-- What `encodeFrame` answers, in one line per case (R71). -/
theorem encodeFrame_ok (dst src cmd : Byte) (p : Bytes) (h : p.length ≤ 255) :
    encodeFrame dst src cmd p = .ok (buildFrame dst src cmd p) := by
  simp [encodeFrame, Nat.not_lt.2 h]

theorem encodeFrame_error (dst src cmd : Byte) (p : Bytes) (h : 255 < p.length) :
    encodeFrame dst src cmd p = .error (.encodeError p.length) := by
  simp [encodeFrame, h]

/-- The first five and the last three bytes of a buffer of at least 8 bytes. -/
theorem split_buffer (buf : Bytes) (h : 8 ≤ buf.length) :
    ∃ b0 b1 b2 b3 b4 mid e2 e1 e0, buf = [b0, b1, b2, b3, b4] ++ mid ++ [e2, e1, e0] := by
  match buf, h with
  | b0 :: b1 :: b2 :: b3 :: b4 :: rest, h =>
    have hr : 3 ≤ rest.length := by simp at h; omega
    have hd : (rest.drop (rest.length - 3)).length = 3 := by simp; omega
    match hw : rest.drop (rest.length - 3), hd with
    | [e2, e1, e0], _ =>
      refine ⟨b0, b1, b2, b3, b4, rest.take (rest.length - 3), e2, e1, e0, ?_⟩
      rw [← hw]; simp

/-- The decoder on a buffer written out: the checks in the order of R78. Every buffer of at least 8 bytes has this
form (`split_buffer`); a shorter one is TooShort (`parseFrame_short`). -/
theorem parseFrame_split (b0 b1 b2 b3 b4 e2 e1 e0 : Byte) (mid : Bytes) :
    parseFrame ([b0, b1, b2, b3, b4] ++ mid ++ [e2, e1, e0]) =
      if b0 ≠ Config.sof then .error (.malformedFrame (.badStart b0))
      else if e0 ≠ Config.eof then .error (.malformedFrame (.badEnd e0))
      else if e2 ≠ Config.sep then .error (.malformedFrame (.badSeparator e2))
      else if crc8 ([b1, b2, b3, b4] ++ mid) ≠ e1 then .error (.checksumMismatch e1 (crc8 ([b1, b2, b3, b4] ++ mid)))
      else if b4.toNat ≠ mid.length then .error (.lengthMismatch b4 mid.length)
      else .ok ⟨b1, b2, b3, mid, e1⟩ := by
  have hs : slice ([b0, b1, b2, b3, b4] ++ mid ++ [e2, e1, e0]) 1 (mid.length + 5) = [b1, b2, b3, b4] ++ mid := by
    simp [slice]
  simp only [List.append_assoc] at hs
  unfold parseFrame
  rw [dif_pos (by simp)]
  simp only [parseLong, List.append_assoc, List.length_append, List.length_cons, List.length_nil, frameOverhead_eq]
  have gn : 0 + 1 + 1 + 1 + 1 + 1 + (mid.length + (0 + 1 + 1 + 1)) - 3 = mid.length + 5 := by omega
  have gm : 0 + 1 + 1 + 1 + 1 + 1 + (mid.length + (0 + 1 + 1 + 1)) - 8 = mid.length := by omega
  have i0 : ∀ (k : Nat) (e : Byte) (hk : k < ([b0, b1, b2, b3, b4] ++ (mid ++ [e2, e1, e0])).length),
      ([b0, b1, b2, b3, b4] ++ (mid ++ [e2, e1, e0]))[k]? = some e →
      ([b0, b1, b2, b3, b4] ++ (mid ++ [e2, e1, e0]))[k]'hk = e := by
    intro k e hk hx
    rw [List.getElem?_eq_getElem hk] at hx
    exact Option.some.inj hx
  rw [i0 (0 + 1 + 1 + 1 + 1 + 1 + (mid.length + (0 + 1 + 1 + 1)) - 1) e0 _
      (by rw [show 0 + 1 + 1 + 1 + 1 + 1 + (mid.length + (0 + 1 + 1 + 1)) - 1 = (mid.length + 2) + 5 by omega]; simp),
    i0 (0 + 1 + 1 + 1 + 1 + 1 + (mid.length + (0 + 1 + 1 + 1)) - 2) e1 _
      (by rw [show 0 + 1 + 1 + 1 + 1 + 1 + (mid.length + (0 + 1 + 1 + 1)) - 2 = (mid.length + 1) + 5 by omega]; simp),
    i0 (0 + 1 + 1 + 1 + 1 + 1 + (mid.length + (0 + 1 + 1 + 1)) - 3) e2 _
      (by rw [show 0 + 1 + 1 + 1 + 1 + 1 + (mid.length + (0 + 1 + 1 + 1)) - 3 = mid.length + 5 by omega]; simp),
    gn, hs, gm]
  by_cases hL : b4.toNat = mid.length
  · have ht : slice (b0 :: b1 :: b2 :: b3 :: b4 :: (mid ++ [e2, e1, e0])) 5 (5 + mid.length) = mid := by
      simp [slice]
    simp [hL, ht]
  · simp [hL]

theorem parseFrame_short (buf : Bytes) (h : buf.length < 8) :
    parseFrame buf = .error (.malformedFrame (.tooShort buf.length)) := by
  unfold parseFrame; rw [dif_neg (by simpa using h)]

/-- A built frame, split as `parseFrame_split` reads it. -/
theorem buildFrame_split (dst src cmd : Byte) (p : Bytes) :
    buildFrame dst src cmd p = [Config.sof, dst, src, cmd, lenByte p.length] ++ p
      ++ [Config.sep, crc8 ([dst, src, cmd, lenByte p.length] ++ p), Config.eof] := by
  simp [buildFrame, frameBody]

/-- Reading a built frame gives its fields back (41_frame_encoder.md R75). -/
theorem parseFrame_buildFrame (dst src cmd : Byte) (p : Bytes) (h : p.length ≤ 255) :
    parseFrame (buildFrame dst src cmd p) = .ok ⟨dst, src, cmd, p, crc8 (frameBody dst src cmd p)⟩ := by
  rw [buildFrame_split, parseFrame_split]
  simp [lenByte_toNat _ h, frameBody]

/-- An accepted buffer is the frame of its own fields, checksum included (42_frame_decoder.md R77). -/
theorem parseFrame_ok (buf : Bytes) (f : Frame) (h : parseFrame buf = .ok f) :
    buf = buildFrame f.dst f.src f.cmd f.payload ∧ f.payload.length ≤ 255 ∧
      f.checksum = crc8 (frameBody f.dst f.src f.cmd f.payload) := by
  by_cases h8 : 8 ≤ buf.length
  · obtain ⟨b0, b1, b2, b3, b4, mid, e2, e1, e0, rfl⟩ := split_buffer buf h8
    rw [parseFrame_split] at h
    split at h
    · cases h
    split at h
    · cases h
    split at h
    · cases h
    split at h
    · cases h
    split at h
    · cases h
    cases h
    rename_i h0 hE hS hC hL
    have hL' : b4 = lenByte mid.length := by
      have := b4.isLt
      apply BitVec.eq_of_toNat_eq
      rw [lenByte_toNat _ (by simp at hL; omega)]
      simpa using hL
    have hm := b4.isLt
    simp only [not_not, ne_eq] at h0 hE hS hC hL
    refine ⟨?_, by simp only []; omega, ?_⟩
    · rw [buildFrame_split, ← hL', hC, h0, hE, hS]
    · simp only [frameBody, ← hL', hC]
  · rw [parseFrame_short buf (by omega)] at h; cases h

/-- The assembler's test, from its buffer (43_rx_assembler.md R85). -/
theorem frameDone_iff (buf : Bytes) :
    frameDone buf = true ↔ ∃ len, buf[4]? = some len ∧ buf.length = len.toNat + 8 := by
  unfold frameDone frameLength
  cases buf[4]? <;> simp

end Sys2Proof.Machine
end

