-- ==== Sys2Proof/Laws/Decode.lean ====
section
/-! SUPPORT. What the select and command tables do: each code names one entry, and reserved codes name none. -/

namespace Sys2Proof

open Machine

theorem Select.ofCode_code (sel : Select) : Select.ofCode sel.code = some sel := by cases sel <;> decide

/-- A code that names a select is that select's code. -/
theorem Select.code_of_ofCode : ∀ (op : BitVec 4) (sel : Select), Select.ofCode op = some sel → sel.code = op := by
  intro op sel h
  have := List.find?_some h
  simpa using this

/-- The reserved codes (30_encoding.md R55). -/
theorem Select.ofCode_reserved : ∀ op : BitVec 4, op = 0b0000 ∨ 0b1010 ≤ op.toNat → Select.ofCode op = none := by decide

theorem commandOf_cmdId (c : Command) : commandOf (cmdId c) = some c := by cases c <;> decide

/-- A CMD byte that names a command is that command's id. -/
theorem cmdId_of_commandOf (cmd : Byte) (c : Command) (h : commandOf cmd = some c) : cmdId c = cmd := by
  have := List.find?_some h
  simpa using this

/-- A built frame decodes to the instruction that sends it. -/
theorem decode_wire_buildFrame (dst src cmd : Byte) (p : Bytes) (h : p.length ≤ 255) :
    decode (.wire (buildFrame dst src cmd p)) =
      .ok (sendInstr ⟨dst, src, cmd, p, crc8 (frameBody dst src cmd p)⟩) := by
  simp [decode, decodeWire, parseFrame_buildFrame _ _ _ _ h]

end Sys2Proof
end

