-- ==== Sys2Proof/Laws/State.lean ====
section
/-! SUPPORT. One lemma per field per update of State, so that no proof unfolds a record update. -/

namespace Sys2Proof.Machine

variable (s : State)

@[simp] theorem State.setCrc_crc (v : Byte) : (s.setCrc v).crc = v := rfl
@[simp] theorem State.setCrc_rxState (v : Byte) : (s.setCrc v).rxState = s.rxState := rfl
@[simp] theorem State.setCrc_rxBuf (v : Byte) : (s.setCrc v).rxBuf = s.rxBuf := rfl
@[simp] theorem State.setCrc_tx (v : Byte) : (s.setCrc v).tx = s.tx := rfl
@[simp] theorem State.setCrc_txTaken (v : Byte) : (s.setCrc v).txTaken = s.txTaken := rfl
@[simp] theorem State.setCrc_responses (v : Byte) : (s.setCrc v).responses = s.responses := rfl
@[simp] theorem State.setCrc_inbox (v : Byte) : (s.setCrc v).inbox = s.inbox := rfl

@[simp] theorem State.setRx_crc (mode : RxState) (buf : Bytes) : (s.setRx mode buf).crc = s.crc := rfl
@[simp] theorem State.setRx_rxState (mode : RxState) (buf : Bytes) : (s.setRx mode buf).rxState = mode := rfl
@[simp] theorem State.setRx_rxBuf (mode : RxState) (buf : Bytes) : (s.setRx mode buf).rxBuf = buf := rfl
@[simp] theorem State.setRx_tx (mode : RxState) (buf : Bytes) : (s.setRx mode buf).tx = s.tx := rfl
@[simp] theorem State.setRx_txTaken (mode : RxState) (buf : Bytes) : (s.setRx mode buf).txTaken = s.txTaken := rfl
@[simp] theorem State.setRx_responses (mode : RxState) (buf : Bytes) : (s.setRx mode buf).responses = s.responses := rfl
@[simp] theorem State.setRx_inbox (mode : RxState) (buf : Bytes) : (s.setRx mode buf).inbox = s.inbox := rfl

@[simp] theorem State.emit_crc (bs : Bytes) : (s.emit bs).crc = s.crc := rfl
@[simp] theorem State.emit_rxState (bs : Bytes) : (s.emit bs).rxState = s.rxState := rfl
@[simp] theorem State.emit_rxBuf (bs : Bytes) : (s.emit bs).rxBuf = s.rxBuf := rfl
@[simp] theorem State.emit_tx (bs : Bytes) : (s.emit bs).tx = s.tx ++ bs := rfl
@[simp] theorem State.emit_txTaken (bs : Bytes) : (s.emit bs).txTaken = s.txTaken := rfl
@[simp] theorem State.emit_responses (bs : Bytes) : (s.emit bs).responses = s.responses := rfl
@[simp] theorem State.emit_inbox (bs : Bytes) : (s.emit bs).inbox = s.inbox := rfl

@[simp] theorem State.respond_crc (r : Response) : (s.respond r).crc = s.crc := rfl
@[simp] theorem State.respond_rxState (r : Response) : (s.respond r).rxState = s.rxState := rfl
@[simp] theorem State.respond_rxBuf (r : Response) : (s.respond r).rxBuf = s.rxBuf := rfl
@[simp] theorem State.respond_tx (r : Response) : (s.respond r).tx = s.tx := rfl
@[simp] theorem State.respond_txTaken (r : Response) : (s.respond r).txTaken = s.txTaken := rfl
@[simp] theorem State.respond_responses (r : Response) : (s.respond r).responses = s.responses ++ [r] := rfl
@[simp] theorem State.respond_inbox (r : Response) : (s.respond r).inbox = s.inbox := rfl

@[simp] theorem State.raise_crc (e : BlockError) : (s.raise e).crc = s.crc := rfl
@[simp] theorem State.raise_rxState (e : BlockError) : (s.raise e).rxState = s.rxState := rfl
@[simp] theorem State.raise_rxBuf (e : BlockError) : (s.raise e).rxBuf = s.rxBuf := rfl
@[simp] theorem State.raise_tx (e : BlockError) : (s.raise e).tx = s.tx := rfl
@[simp] theorem State.raise_txTaken (e : BlockError) : (s.raise e).txTaken = s.txTaken := rfl
@[simp] theorem State.raise_responses (e : BlockError) : (s.raise e).responses = s.responses ++ [.err e] := rfl
@[simp] theorem State.raise_inbox (e : BlockError) : (s.raise e).inbox = s.inbox := rfl

@[simp] theorem State.answer_crc (v : Value) : (s.answer v).crc = s.crc := rfl
@[simp] theorem State.answer_rxState (v : Value) : (s.answer v).rxState = s.rxState := rfl
@[simp] theorem State.answer_rxBuf (v : Value) : (s.answer v).rxBuf = s.rxBuf := rfl
@[simp] theorem State.answer_tx (v : Value) : (s.answer v).tx = s.tx := rfl
@[simp] theorem State.answer_txTaken (v : Value) : (s.answer v).txTaken = s.txTaken := rfl
@[simp] theorem State.answer_responses (v : Value) : (s.answer v).responses = s.responses ++ [.ok v] := rfl
@[simp] theorem State.answer_inbox (v : Value) : (s.answer v).inbox = s.inbox := rfl

@[simp] theorem State.present_crc (r : Request) : (s.present r).crc = s.crc := rfl
@[simp] theorem State.present_rxState (r : Request) : (s.present r).rxState = s.rxState := rfl
@[simp] theorem State.present_rxBuf (r : Request) : (s.present r).rxBuf = s.rxBuf := rfl
@[simp] theorem State.present_tx (r : Request) : (s.present r).tx = s.tx := rfl
@[simp] theorem State.present_txTaken (r : Request) : (s.present r).txTaken = s.txTaken := rfl
@[simp] theorem State.present_responses (r : Request) : (s.present r).responses = s.responses := rfl
@[simp] theorem State.present_inbox (r : Request) : (s.present r).inbox = .issue r :: s.inbox := rfl

/-- The transmit link's reading changes nothing but its own count. -/
theorem State.takeTx_eq : s.takeTx = { s with txTaken := s.takeTx.txTaken } := by
  unfold State.takeTx; split <;> rfl

@[simp] theorem State.takeTx_crc : s.takeTx.crc = s.crc := by unfold State.takeTx; split <;> rfl
@[simp] theorem State.takeTx_rxState : s.takeTx.rxState = s.rxState := by unfold State.takeTx; split <;> rfl
@[simp] theorem State.takeTx_rxBuf : s.takeTx.rxBuf = s.rxBuf := by unfold State.takeTx; split <;> rfl
@[simp] theorem State.takeTx_tx : s.takeTx.tx = s.tx := by unfold State.takeTx; split <;> rfl
@[simp] theorem State.takeTx_responses : s.takeTx.responses = s.responses := by unfold State.takeTx; split <;> rfl
@[simp] theorem State.takeTx_inbox : s.takeTx.inbox = s.inbox := by unfold State.takeTx; split <;> rfl

/-- The count never passes the end of the transmit stream. -/
theorem State.takeTx_txTaken_le (h : s.txTaken ≤ s.tx.length) : s.takeTx.txTaken ≤ s.tx.length := by
  unfold State.takeTx; split
  · assumption
  · exact h

/-- The bytes taken are a longer prefix of the same stream. -/
theorem State.takeTx_taken : s.takeTx.taken = s.tx.take (s.txTaken + 1) := by
  unfold State.takeTx State.taken; split
  · rfl
  · rw [List.take_of_length_le (by omega), List.take_of_length_le (by omega)]

@[simp] theorem State.nextEvent_nil (h : s.inbox = []) : s.nextEvent = none := by simp [State.nextEvent, h]

@[simp] theorem State.nextEvent_cons (e : Event) (rest : List Event) (h : s.inbox = e :: rest) :
    s.nextEvent = some (e, { s with inbox := rest }) := by simp [State.nextEvent, h]

@[simp] theorem State.nextEvent_present (r : Request) : (s.present r).nextEvent = some (.issue r, s) := rfl

end Sys2Proof.Machine
end

