-- ==== Sys2Proof/Laws/Ops.lean ====
section
/-! SUPPORT. For each shared operation everything it can do, said once. -/

namespace Sys2Proof.Machine

/-- Sending a frame either emits and answers it, or raises `EncodeError` (R71). -/
theorem sendFrame_cases (dst src cmd : Byte) (p : Bytes) (s : State) :
    (p.length ≤ 255 ∧ sendFrame dst src cmd p s =
      (s.emit (buildFrame dst src cmd p)).answer (.bytes (buildFrame dst src cmd p))) ∨
    (255 < p.length ∧ sendFrame dst src cmd p s = s.raise (.encodeError p.length)) := by
  by_cases h : p.length ≤ 255
  · exact .inl ⟨h, by simp [sendFrame, encodeFrame_ok _ _ _ _ h]⟩
  · exact .inr ⟨by omega, by simp [sendFrame, encodeFrame_error _ _ _ _ (Nat.lt_of_not_le h)]⟩

/-- DECODE only responds (R76). -/
theorem checkBuffer_cases (buf : Bytes) (s : State) :
    (∃ f, parseFrame buf = .ok f ∧ checkBuffer buf s = s.answer (.frame f)) ∨
    (∃ e, parseFrame buf = .error e ∧ checkBuffer buf s = s.raise e) := by
  unfold checkBuffer
  cases parseFrame buf with
  | ok f => exact .inl ⟨f, rfl, rfl⟩
  | error e => exact .inr ⟨e, rfl, rfl⟩

/-- RESP_CHECK only responds (R82). -/
theorem checkResponse_cases (reqDst reqSrc reqCmd : Byte) (rsp : Frame) (s : State) :
    (rsp.dst = reqSrc ∧ rsp.src = reqDst ∧ rsp.cmd = reqCmd ∧
      checkResponse reqDst reqSrc reqCmd rsp s = s.answer .unit) ∨
    (∃ why got want, matchResponse reqDst reqSrc reqCmd rsp = .error (.unexpectedResponse why got want) ∧
      checkResponse reqDst reqSrc reqCmd rsp s = s.raise (.unexpectedResponse why got want)) := by
  unfold checkResponse matchResponse
  by_cases hd : rsp.dst = reqSrc
  · by_cases hs : rsp.src = reqDst
    · by_cases hc : rsp.cmd = reqCmd
      · exact .inl ⟨hd, hs, hc, by simp [hd, hs, hc]⟩
      · exact .inr ⟨_, _, _, by simp [hd, hs, hc]; exact ⟨rfl, rfl, rfl⟩, by simp [hd, hs, hc]⟩
    · exact .inr ⟨_, _, _, by simp [hd, hs]; exact ⟨rfl, rfl, rfl⟩, by simp [hd, hs]⟩
  · exact .inr ⟨_, _, _, by simp [hd]; exact ⟨rfl, rfl, rfl⟩, by simp [hd]⟩

/-- RX_BYTE does one of four things (R85). -/
theorem receiveByte_cases (b : Byte) (s : State) :
    (s.rxState = .hunt ∧ b = Config.sof ∧ receiveByte b s = (s.setRx .collect [b]).respond .pending) ∨
    (s.rxState = .hunt ∧ b ≠ Config.sof ∧ receiveByte b s = s.respond .discarded) ∨
    (s.rxState = .collect ∧ frameDone (s.rxBuf ++ [b]) = true ∧
      receiveByte b s = (s.setRx .hunt []).respond (.complete (s.rxBuf ++ [b]))) ∨
    (s.rxState = .collect ∧ frameDone (s.rxBuf ++ [b]) = false ∧
      receiveByte b s = (s.setRx .collect (s.rxBuf ++ [b])).respond .pending) := by
  unfold receiveByte huntByte collectByte
  cases h : s.rxState
  · by_cases hb : b = Config.sof <;> simp [hb]
  · cases hd : frameDone (s.rxBuf ++ [b]) <;> simp [hd]

end Sys2Proof.Machine
end

