-- ==== Sys2Proof/Laws/PerInstr.lean ====
section
/-! SUPPORT. Statements for all instructions, one lemma per constructor. -/

/-- What a row of spec/opcode_table.json fixes: the value of its `match` field. -/
def Sys2Proof.Laws.OpcodeBits.rowValue : Sys2Proof.Instr → Nat
  | .crcInit => 0x1
  | .crcUpdate _ => 0x2
  | .crcRead => 0x3
  | .crcCompute _ => 0x4
  | .encode _ _ _ _ => 0x5
  | .decode _ => 0x6
  | .respCheck _ _ _ _ => 0x7
  | .rxByte _ => 0x8
  | .rxFlush => 0x9
  | .whoAmI _ _ _ => 0x10
  | .getTemperature _ _ _ => 0x20
  | .getDipoleMoment _ _ _ => 0x21
  | .setDipoleMomentSetpoint _ _ _ => 0x22
  | .start _ _ _ => 0x25
  | .stop _ _ _ => 0x26
  | .getStatus _ _ _ => 0x34

/-- The encoding carries the bits of its row: the select of the operation record (30_encoding.md R53), or byte 3 of the
wire frame (R47). -/
def Sys2Proof.Laws.OpcodeBits.Statement (i : Sys2Proof.Instr) : Prop :=
  Sys2Proof.tableBits (Sys2Proof.encode i) = some (Sys2Proof.Laws.OpcodeBits.rowValue i)

namespace Sys2Proof.Laws

theorem OpcodeBits.crcInit : OpcodeBits.Statement .crcInit := rfl
theorem OpcodeBits.crcUpdate (b : Byte) : OpcodeBits.Statement (.crcUpdate b) := rfl
theorem OpcodeBits.crcRead : OpcodeBits.Statement .crcRead := rfl
theorem OpcodeBits.crcCompute (data : Bytes) : OpcodeBits.Statement (.crcCompute data) := rfl
theorem OpcodeBits.encode (dst src cmd : Byte) (payload : Bytes) : OpcodeBits.Statement (.encode dst src cmd payload) := rfl
theorem OpcodeBits.decode (buf : Bytes) : OpcodeBits.Statement (.decode buf) := rfl
theorem OpcodeBits.respCheck (reqDst reqSrc reqCmd : Byte) (rsp : Frame) : OpcodeBits.Statement (.respCheck reqDst reqSrc reqCmd rsp) := rfl
theorem OpcodeBits.rxByte (b : Byte) : OpcodeBits.Statement (.rxByte b) := rfl
theorem OpcodeBits.rxFlush : OpcodeBits.Statement .rxFlush := rfl
theorem OpcodeBits.whoAmI (dst src : Byte) (payload : Bytes) : OpcodeBits.Statement (.whoAmI dst src payload) :=
  rfl
theorem OpcodeBits.getTemperature (dst src : Byte) (payload : Bytes) : OpcodeBits.Statement (.getTemperature dst src payload) :=
  rfl
theorem OpcodeBits.getDipoleMoment (dst src : Byte) (payload : Bytes) : OpcodeBits.Statement (.getDipoleMoment dst src payload) :=
  rfl
theorem OpcodeBits.setDipoleMomentSetpoint (dst src : Byte) (payload : Bytes) : OpcodeBits.Statement (.setDipoleMomentSetpoint dst src payload) :=
  rfl
theorem OpcodeBits.start (dst src : Byte) (payload : Bytes) : OpcodeBits.Statement (.start dst src payload) := rfl
theorem OpcodeBits.stop (dst src : Byte) (payload : Bytes) : OpcodeBits.Statement (.stop dst src payload) := rfl
theorem OpcodeBits.getStatus (dst src : Byte) (payload : Bytes) : OpcodeBits.Statement (.getStatus dst src payload) :=
  rfl

end Sys2Proof.Laws
end

