-- ==== Sys2Proof/Laws/Session.lean ====
section
/-! SUPPORT. What a run of several operations and a host's interaction are made of. -/

namespace Sys2Proof.Machine

@[simp] theorem execAll_nil (s : State) : execAll [] s = .next s := rfl

/-- A run goes on from the state its first operation leaves. -/
theorem execAll_cons (i : Instr) (is : List Instr) (s t : State) (h : exec i s = .next t) :
    execAll (i :: is) s = execAll is t := by simp [execAll, h]

/-- A run goes on from the state its first part leaves. -/
theorem execAll_append (is js : List Instr) (s t : State) (h : execAll is s = .next t) :
    execAll (is ++ js) s = execAll js t := by
  induction is generalizing s with
  | nil => cases h; rfl
  | cons i is ih =>
    simp only [execAll, List.cons_append] at h ⊢
    cases he : exec i s with
    | next u => rw [he] at h; exact ih u h
    | fault f => cases f
    | refused r => rw [he] at h; cases h

@[simp] theorem replyIssues_deadline (dev host : Address) (cmd : CommandId) :
    replyIssues dev host cmd .deadline = [.rxFlush] := rfl

theorem replyIssues_ok (dev host : Address) (cmd : CommandId) (buf : Bytes) (rsp : Frame) (h : parseFrame buf = .ok rsp) :
    replyIssues dev host cmd (.complete buf) = [.decode buf, .respCheck dev host cmd rsp] := by simp [replyIssues, h]

theorem replyIssues_error (dev host : Address) (cmd : CommandId) (buf : Bytes) (e : BlockError)
    (h : parseFrame buf = .error e) : replyIssues dev host cmd (.complete buf) = [.decode buf] := by
  simp [replyIssues, h]

@[simp] theorem replyAccepted_deadline (dev host : Address) (cmd : CommandId) :
    replyAccepted dev host cmd .deadline = false := rfl

/-- A buffer is accepted when it parses to a Frame that matches the request (42_frame_decoder.md R83). -/
theorem accepted_eq_some (dev host : Address) (cmd : CommandId) (buf : Bytes) (rsp : Frame) :
    accepted dev host cmd buf = some rsp ↔ parseFrame buf = .ok rsp ∧ matchResponse dev host cmd rsp = .ok () := by
  unfold accepted
  cases parseFrame buf with
  | error e => simp
  | ok f =>
    dsimp only
    cases hm : matchResponse dev host cmd f with
    | error e => simp; rintro rfl; simp [hm]
    | ok u => simp; rintro rfl; exact hm

@[simp] theorem attemptsIssue_nil (request : Instr) (dev host : Address) (cmd : CommandId) :
    attemptsIssue request dev host cmd [] = [] := rfl

/-- After an accepted reply nothing more is issued; after any other the later attempts are. -/
theorem attemptsIssue_cons (request : Instr) (dev host : Address) (cmd : CommandId) (r : Reply) (later : List Reply) :
    attemptsIssue request dev host cmd (r :: later) = (request :: replyIssues dev host cmd r) ++
      if replyAccepted dev host cmd r then [] else attemptsIssue request dev host cmd later := rfl

/-- A catalog command is the sending of its request, whichever command it is (notes/assumptions/3.md). -/
theorem exec_commandInstr (c : Command) (dst src : Address) (payload : Bytes) (s : State) :
    exec (commandInstr c dst src payload) s = .next (sendCommand c dst src payload s) := by cases c <;> rfl

end Sys2Proof.Machine
end

