-- ==== Sys2Proof/Laws/Step.lean ====
section
/-! SUPPORT. What a step can do, and how a run unrolls. -/

namespace Sys2Proof.Machine

/-- A step that ends in a next state waited, let the link take a byte, or performed a decoded operation. -/
theorem step_cases (s t : State) (h : step s = .next t) :
    (s.inbox = [] ∧ t = s) ∨
    (∃ rest, s.inbox = .txTake :: rest ∧ t = State.takeTx { s with inbox := rest }) ∨
    (∃ r rest i, s.inbox = .issue r :: rest ∧ decode r = .ok i ∧ exec i { s with inbox := rest } = .next t) := by
  unfold step at h
  cases hb : s.inbox with
  | nil =>
    rw [State.nextEvent_nil s hb] at h
    cases h; exact .inl ⟨rfl, rfl⟩
  | cons e rest =>
    rw [State.nextEvent_cons s _ _ hb] at h
    cases e with
    | txTake => cases h; exact .inr (.inl ⟨rest, rfl, rfl⟩)
    | issue r =>
      refine .inr (.inr ⟨r, rest, ?_⟩)
      cases hd : decode r with
      | ok i => exact ⟨i, rfl, rfl, by simpa [hd] using h⟩
      | error e => simp [hd] at h

/-- A run unrolls from its first step. -/
theorem core_run_succ (n : Nat) (s t : State) (h : step s = .next t) :
    Host.Core.run Sys2Proof.core (n + 1) s = Host.Core.run Sys2Proof.core n t := by
  have e : Sys2Proof.core.step s = Host.Outcome.next t := h
  simp only [Host.Core.run, e]

end Sys2Proof.Machine
end

