-- ==== Sys2Proof/Tests/Slice0.lean ====
section
/-! SUPPORT. Small tests, each on one operation, and a witness for every statement that has hypotheses. Expected values
are those of the spec: the rows of 95_test_vectors.md are named by their ids, the rest by their rule. -/

namespace Sys2Proof.Tests

open Machine

set_option maxRecDepth 10000

/-- A busy state: the register of vector CR1, a partial frame (X5), and bytes sent before. -/
def busy : State :=
  { crc := 0x5A, rxState := .collect, rxBuf := [0x24, 0x01, 0x11], tx := [0xAA, 0xBB], txTaken := 1
    responses := [.pending], inbox := [.txTake] }

/-- Waiting for a start byte. -/
def hunting : State := { busy with rxState := .hunt, rxBuf := [] }

/-- The frame of E1. -/
def whoAmIFrame : Bytes := [0x24, 0x11, 0x01, 0x10, 0x00, 0x3A, 0x4D, 0x0A]

/-- A payload of `n` zeros. -/
def zeros (n : Nat) : Bytes := List.replicate n 0x00

/-- `s` with the response `r` added. -/
def plus (s : State) (r : Response) : State := { s with responses := s.responses ++ [r] }

/-- `s` with a frame sent and answered. -/
def sentFrame (s : State) (f : Bytes) : State :=
  { s with tx := s.tx ++ f, responses := s.responses ++ [.ok (.bytes f)] }

-- Decoding: words written out from 30_encoding.md R54 and R47, and from the examples of 44_command_catalog.md -----

theorem test_decode_crcInit : decode (.op ⟨0b0001, []⟩) = .ok .crcInit := rfl
theorem test_decode_crcUpdate : decode (.op ⟨0b0010, [.byte 0x11]⟩) = .ok (.crcUpdate 0x11) := rfl
theorem test_decode_crcRead : decode (.op ⟨0b0011, []⟩) = .ok .crcRead := rfl
theorem test_decode_crcCompute : decode (.op ⟨0b0100, [.seq [0x11, 0x01]]⟩) = .ok (.crcCompute [0x11, 0x01]) := rfl
theorem test_decode_encode : decode (.op ⟨0b0101, [.byte 0x11, .byte 0x01, .byte 0x22, .seq [0x10, 0x27]]⟩)
    = .ok (.encode 0x11 0x01 0x22 [0x10, 0x27]) := rfl
theorem test_decode_decode : decode (.op ⟨0b0110, [.seq [0x24, 0x0A]]⟩) = .ok (.decode [0x24, 0x0A]) := rfl
theorem test_decode_respCheck :
    decode (.op ⟨0b0111, [.byte 0x11, .byte 0x01, .byte 0x34, .frame ⟨0x01, 0x11, 0x34, [0x00], 0xBA⟩]⟩)
      = .ok (.respCheck 0x11 0x01 0x34 ⟨0x01, 0x11, 0x34, [0x00], 0xBA⟩) := rfl
theorem test_decode_rxByte : decode (.op ⟨0b1000, [.byte 0x24]⟩) = .ok (.rxByte 0x24) := rfl
theorem test_decode_rxFlush : decode (.op ⟨0b1001, []⟩) = .ok .rxFlush := rfl
theorem test_decode_whoAmI :
    decode (.wire [0x24, 0x11, 0x01, 0x10, 0x00, 0x3A, 0x4D, 0x0A]) = .ok (.whoAmI 0x11 0x01 []) := rfl
theorem test_decode_getTemperature :
    decode (.wire [0x24, 0x11, 0x01, 0x20, 0x00, 0x3A, 0xDC, 0x0A]) = .ok (.getTemperature 0x11 0x01 []) := rfl
theorem test_decode_getDipoleMoment :
    decode (.wire [0x24, 0x11, 0x01, 0x21, 0x00, 0x3A, 0xEC, 0x0A]) = .ok (.getDipoleMoment 0x11 0x01 []) := rfl
theorem test_decode_setDipoleMomentSetpoint :
    decode (.wire [0x24, 0x11, 0x01, 0x22, 0x02, 0x10, 0x27, 0x3A, 0xBB, 0x0A])
      = .ok (.setDipoleMomentSetpoint 0x11 0x01 [0x10, 0x27]) := rfl
theorem test_decode_start :
    decode (.wire [0x24, 0x11, 0x01, 0x25, 0x00, 0x3A, 0x2C, 0x0A]) = .ok (.start 0x11 0x01 []) := rfl
theorem test_decode_stop :
    decode (.wire [0x24, 0x11, 0x01, 0x26, 0x00, 0x3A, 0x7C, 0x0A]) = .ok (.stop 0x11 0x01 []) := rfl
theorem test_decode_getStatus :
    decode (.wire [0x24, 0x11, 0x01, 0x34, 0x00, 0x3A, 0xCA, 0x0A]) = .ok (.getStatus 0x11 0x01 []) := rfl

/-- E8: an unassigned CMD value is sent like any other (R98). -/
theorem test_decode_unassigned_command :
    decode (.wire [0x24, 0x00, 0x00, 0x00, 0x00, 0x3A, 0x00, 0x0A]) = .ok (.encode 0x00 0x00 0x00 []) := rfl

/-- The same bytes from the encoder (E4). -/
theorem test_encode_setDipoleMomentSetpoint :
    encode (.setDipoleMomentSetpoint 0x11 0x01 [0x10, 0x27])
      = .wire [0x24, 0x11, 0x01, 0x22, 0x02, 0x10, 0x27, 0x3A, 0xBB, 0x0A] := rfl

-- What is refused ------------------------------------------------------------------------------------------------

theorem test_wellFormed_respCheck_long :
    Instr.wellFormed (.respCheck 0x11 0x01 0x34 ⟨0x01, 0x11, 0x34, zeros 256, 0x00⟩) = false := by decide
theorem test_wellFormed_commands_long :
    [Instr.whoAmI 0x11 0x01 (zeros 256), .getTemperature 0x11 0x01 (zeros 256), .getDipoleMoment 0x11 0x01 (zeros 256),
      .setDipoleMomentSetpoint 0x11 0x01 (zeros 256), .start 0x11 0x01 (zeros 256), .stop 0x11 0x01 (zeros 256),
      .getStatus 0x11 0x01 (zeros 256)].all (fun i => !i.wellFormed) = true := by decide
theorem test_decode_long_frame_operand :
    decode (.op ⟨0b0111, [.byte 0, .byte 0, .byte 0, .frame ⟨0, 0, 0, zeros 256, 0⟩]⟩) = .error (.notAFrame 256) := rfl
theorem test_decode_operands_missing : decode (.op ⟨0b0010, []⟩) = .error (.badOperands .crcUpdate) := rfl
theorem test_decode_operands_extra : decode (.op ⟨0b1001, [.byte 0]⟩) = .error (.badOperands .rxFlush) := rfl
/-- V1 and V2. -/
theorem test_decode_reserved :
    [0b0000#4, 0b1010, 0b1011, 0b1100, 0b1101, 0b1110, 0b1111].map (fun op => decodeOp ⟨op, []⟩)
      = [.error (.reservedSelect 0b0000), .error (.reservedSelect 0b1010), .error (.reservedSelect 0b1011),
        .error (.reservedSelect 0b1100), .error (.reservedSelect 0b1101), .error (.reservedSelect 0b1110),
        .error (.reservedSelect 0b1111)] := rfl
/-- DV10 presented for sending. -/
theorem test_decode_bad_wire_frame :
    decode (.wire [0x24, 0x11, 0x01, 0x10, 0x00, 0x3A, 0x4E, 0x0A])
      = .error (.badFrame (.checksumMismatch 0x4E 0x4D)) := rfl
/-- V1 at the step. -/
theorem test_step_reserved :
    step { busy with inbox := [.issue (.op ⟨0b0000, []⟩)] } = .refused (.notAnOperation (.reservedSelect 0b0000)) := rfl

-- CRC unit: sections 2.1 and 2.2 of 95_test_vectors.md --------------------------------------------------------------

theorem test_crcInit_CR1 : exec .crcInit busy = .next (plus { busy with crc := 0x00 } (.ok .unit)) := rfl
theorem test_crcUpdate_CR3 : exec (.crcUpdate 0x01) { busy with crc := 0xE8 }
    = .next (plus { busy with crc := 0x0D } (.ok .unit)) := rfl
theorem test_crcUpdate_CR8 : exec (.crcUpdate 0xFF) { busy with crc := 0xFF }
    = .next (plus { busy with crc := 0x00 } (.ok .unit)) := rfl
theorem test_crcRead_CR6 : exec .crcRead { busy with crc := 0x4D }
    = .next (plus { busy with crc := 0x4D } (.ok (.byte 0x4D))) := rfl
theorem test_crcCompute_CR10 :
    exec (.crcCompute [0x11, 0x01, 0x10, 0x00]) busy = .next (plus busy (.ok (.byte 0x4D))) := rfl
/-- CV11, the check value. -/
theorem test_crcCompute_CV11 : crc8 [0x31, 0x32, 0x33, 0x34, 0x35, 0x36, 0x37, 0x38, 0x39] = 0xC4 := by
  decide +kernel

-- Frame encoder and catalog: section 2.3 ----------------------------------------------------------------------------

/-- E9: delimiter values are data. -/
theorem test_encode_E9 : exec (.encode 0x24 0x3A 0x0A [0x24, 0x3A, 0x0A]) busy
    = .next (sentFrame busy [0x24, 0x24, 0x3A, 0x0A, 0x03, 0x24, 0x3A, 0x0A, 0x3A, 0xC4, 0x0A]) := rfl
/-- E12: 256 bytes are too many. -/
theorem test_encode_E12 : exec (.encode 0x11 0x01 0x22 (zeros 256)) busy
    = .next (plus busy (.err (.encodeError 256))) := rfl
theorem test_whoAmI_E1 : exec (.whoAmI 0x11 0x01 []) busy = .next (sentFrame busy whoAmIFrame) := rfl
theorem test_getTemperature_E2 : exec (.getTemperature 0x11 0x01 []) busy
    = .next (sentFrame busy [0x24, 0x11, 0x01, 0x20, 0x00, 0x3A, 0xDC, 0x0A]) := rfl
theorem test_getDipoleMoment_E3 : exec (.getDipoleMoment 0x11 0x01 []) busy
    = .next (sentFrame busy [0x24, 0x11, 0x01, 0x21, 0x00, 0x3A, 0xEC, 0x0A]) := rfl
theorem test_setDipoleMomentSetpoint_E4 : exec (.setDipoleMomentSetpoint 0x11 0x01 [0x10, 0x27]) busy
    = .next (sentFrame busy [0x24, 0x11, 0x01, 0x22, 0x02, 0x10, 0x27, 0x3A, 0xBB, 0x0A]) := rfl
theorem test_start_E5 : exec (.start 0x11 0x01 []) busy
    = .next (sentFrame busy [0x24, 0x11, 0x01, 0x25, 0x00, 0x3A, 0x2C, 0x0A]) := rfl
theorem test_stop_E6 : exec (.stop 0x11 0x01 []) busy
    = .next (sentFrame busy [0x24, 0x11, 0x01, 0x26, 0x00, 0x3A, 0x7C, 0x0A]) := rfl
theorem test_getStatus_E7 : exec (.getStatus 0x11 0x01 []) busy
    = .next (sentFrame busy [0x24, 0x11, 0x01, 0x34, 0x00, 0x3A, 0xCA, 0x0A]) := rfl

-- Frame decoder and response checker: sections 2.4 and 2.6 ----------------------------------------------------------

/-- DV2. -/
theorem test_decode_DV2 :
    exec (.decode [0x24, 0x24, 0x3A, 0x0A, 0x03, 0x24, 0x3A, 0x0A, 0x3A, 0xC4, 0x0A]) busy
      = .next (plus busy (.ok (.frame ⟨0x24, 0x3A, 0x0A, [0x24, 0x3A, 0x0A], 0xC4⟩))) := rfl
/-- DV5 to DV16, DV18 and DV19, as the pure function that DECODE answers. -/
theorem test_decode_errors :
    [[], [0x24, 0x11, 0x01, 0x10, 0x00, 0x3A, 0x4D],
      [0x23, 0x11, 0x01, 0x10, 0x00, 0x3A, 0x4D, 0x0A], [0x24, 0x11, 0x01, 0x10, 0x00, 0x3A, 0x4D, 0x0D],
      [0x24, 0x11, 0x01, 0x10, 0x00, 0x3B, 0x4D, 0x0A], [0x24, 0x11, 0x01, 0x10, 0x00, 0x3A, 0x4E, 0x0A],
      [0x24, 0x10, 0x01, 0x10, 0x00, 0x3A, 0x4D, 0x0A], [0x24, 0x11, 0x01, 0x10, 0x01, 0x3A, 0x4D, 0x0A],
      [0x24, 0x11, 0x01, 0x10, 0x01, 0x3A, 0xA6, 0x0A], [0x24, 0x11, 0x01, 0x10, 0x00, 0x41, 0x3A, 0x8E, 0x0A],
      [0x24, 0x11, 0x01, 0x10, 0x00, 0x3A, 0x4D, 0x0A, 0x0A], [0x24, 0x11, 0x01, 0x10, 0x00, 0x3A, 0x4D, 0x0A, 0x55],
      [0x24, 0x01, 0x11, 0x24, 0x01, 0x11, 0x34, 0x01, 0x00],
      [0x23, 0x11, 0x01, 0x10, 0x00, 0x3B, 0x4D, 0x0D]].map parseFrame
      = [.error (.malformedFrame (.tooShort 0)), .error (.malformedFrame (.tooShort 7)),
        .error (.malformedFrame (.badStart 0x23)), .error (.malformedFrame (.badEnd 0x0D)),
        .error (.malformedFrame (.badSeparator 0x3B)), .error (.checksumMismatch 0x4E 0x4D),
        .error (.checksumMismatch 0x4D 0xDC), .error (.checksumMismatch 0x4D 0xA6),
        .error (.lengthMismatch 0x01 0), .error (.lengthMismatch 0x00 1),
        .error (.malformedFrame (.badSeparator 0x4D)), .error (.malformedFrame (.badEnd 0x55)),
        .error (.malformedFrame (.badEnd 0x00)), .error (.malformedFrame (.badStart 0x23))] := rfl
theorem test_respCheck_K1 : exec (.respCheck 0x11 0x01 0x34 ⟨0x01, 0x11, 0x34, [0x00], 0xBA⟩) busy
    = .next (plus busy (.ok .unit)) := rfl
/-- K2 to K7. -/
theorem test_respCheck_errors :
    [matchResponse 0x11 0x01 0x34 ⟨0x02, 0x11, 0x34, [0x00], 0x41⟩, matchResponse 0x11 0x01 0x34 ⟨0x01, 0x12, 0x34, [], 0⟩,
      matchResponse 0x11 0x01 0x34 ⟨0x01, 0x11, 0x20, [], 0⟩, matchResponse 0x11 0x01 0x34 ⟨0x02, 0x12, 0x20, [], 0⟩,
      matchResponse 0x11 0x01 0x34 ⟨0x11, 0x01, 0x34, [], 0xCA⟩, matchResponse 0x05 0x05 0x34 ⟨0x05, 0x05, 0x34, [], 0⟩]
      = [.error (.unexpectedResponse .wrongDestination 0x02 0x01), .error (.unexpectedResponse .wrongSource 0x12 0x11),
        .error (.unexpectedResponse .wrongCommand 0x20 0x34), .error (.unexpectedResponse .wrongDestination 0x02 0x01),
        .error (.unexpectedResponse .wrongDestination 0x11 0x01), .ok ()] := rfl

-- Receive assembler: section 2.7 ------------------------------------------------------------------------------------

/-- The last byte of X2: with LEN 0 the 8th byte completes. -/
theorem test_rxByte_X2 : exec (.rxByte 0x0A) { busy with rxBuf := [0x24, 0x00, 0x00, 0x00, 0x00, 0x3A, 0x00] }
    = .next (plus hunting (.complete [0x24, 0x00, 0x00, 0x00, 0x00, 0x3A, 0x00, 0x0A])) := rfl
/-- X9: inside a frame the start byte is data. -/
theorem test_rxByte_X9 : exec (.rxByte 0x24) busy
    = .next (plus { busy with rxBuf := [0x24, 0x01, 0x11, 0x24] } .pending) := rfl
theorem test_rxFlush_X6 : exec .rxFlush busy = .next (plus hunting (.ok (.count 3))) := rfl
theorem test_rxFlush_X7 : exec .rxFlush State.reset = .next (plus State.reset (.ok (.count 0))) := rfl

-- What the host issues (program P3: a bad CRC, then a deadline, then an accepted response) -----------------------------

theorem test_transaction_P3 :
    interactionIssues (.transaction .whoAmI 0x11 0x01 []
      ⟨.complete [0x24, 0x01, 0x11, 0x10, 0x03, 0x4D, 0x54, 0x51, 0x3A, 0xED, 0x0A],
        [.deadline, .complete [0x24, 0x01, 0x11, 0x10, 0x03, 0x4D, 0x54, 0x51, 0x3A, 0xEC, 0x0A], .deadline]⟩)
      = [.whoAmI 0x11 0x01 [], .decode [0x24, 0x01, 0x11, 0x10, 0x03, 0x4D, 0x54, 0x51, 0x3A, 0xED, 0x0A],
        .whoAmI 0x11 0x01 [], .rxFlush,
        .whoAmI 0x11 0x01 [], .decode [0x24, 0x01, 0x11, 0x10, 0x03, 0x4D, 0x54, 0x51, 0x3A, 0xEC, 0x0A],
        .respCheck 0x11 0x01 0x10 ⟨0x01, 0x11, 0x10, [0x4D, 0x54, 0x51], 0xEC⟩] := rfl

-- The step ----------------------------------------------------------------------------------------------------------

/-- R114: the block waits. -/
theorem test_step_waits : step State.reset = .next State.reset := rfl
/-- R21: the transmit link takes a byte. -/
theorem test_step_txTake : step busy = .next { busy with txTaken := 2, inbox := [] } := rfl
/-- A table row runs as the first operation after reset, its operands zero (E8 with CMD `0x34`). -/
theorem test_step_table_word : step (State.reset.withFetchWord 8 0x34) = exec (.getStatus 0x00 0x00 []) State.reset := rfl

-- Witnesses: for each statement with hypotheses a state and operands that meet them all ------------------------------

/-- The request that presents CRC_INIT. -/
def initRequest : Request := .op ⟨0b0001, []⟩

theorem witness_StepPerformsDecodedOperation :
    State.reset.inbox = [] ∧ busy.inbox = .txTake :: [] ∧
    ({ busy with inbox := [.issue initRequest] } : State).inbox = .issue initRequest :: [] ∧
    decode initRequest = .ok .crcInit ∧ Instr.crcInit.wellFormed = true := ⟨rfl, rfl, rfl, rfl, rfl⟩

/-- Every row of the table meets the hypothesis, the first and last selects and commands among them. -/
theorem witness_PresentedTableWordRuns :
    decodeTableWord 8 0x01 = some .crcInit ∧ decodeTableWord 8 0x09 = some .rxFlush ∧
    decodeTableWord 8 0x10 = some (.whoAmI 0 0 []) ∧ decodeTableWord 8 0x34 = some (.getStatus 0 0 []) :=
  ⟨rfl, rfl, rfl, rfl⟩

theorem witness_ReservedSelectIsRefused :
    (0b0000#4 = 0b0000 ∨ 0b1010 ≤ (0b0000#4).toNat) ∧ (0b1010#4 = 0b0000 ∨ 0b1010 ≤ (0b1010#4).toNat) ∧
    (0b1111#4 = 0b0000 ∨ 0b1010 ≤ (0b1111#4).toNat) ∧
    ({ busy with inbox := [.issue (.op ⟨0b1010, [.byte 0x01]⟩), .txTake] } : State).inbox
      = .issue (.op ⟨0b1010, [.byte 0x01]⟩) :: [.txTake] := ⟨by decide, by decide, by decide, rfl⟩

theorem witness_RunNeverStops : State.WellPresented { busy with inbox := [.issue initRequest, .txTake] } := by
  intro r h
  obtain rfl : r = initRequest := by simpa using h
  exact ⟨.crcInit, rfl⟩

theorem witness_RunPerformsOperationsInOrder :
    (∀ i ∈ [Instr.crcInit, .encode 0x11 0x01 0x10 [], .start 0x11 0x01 []], i.wellFormed = true) ∧
    ({ busy with inbox := [.issue (encode .crcInit), .issue (encode (.encode 0x11 0x01 0x10 [])),
        .issue (encode (.start 0x11 0x01 [])), .txTake] } : State).inbox
      = [Instr.crcInit, .encode 0x11 0x01 0x10 [], .start 0x11 0x01 []].map (fun i => Event.issue (encode i))
        ++ [.txTake] := ⟨by decide, rfl⟩

/-- Two different states that agree on what CRC_UPDATE reads, and two that agree on what RX_BYTE reads. -/
theorem witness_ReadWriteTable :
    (((access (.crcUpdate 0x01)).readsCrc = true → busy.crc = hunting.crc) ∧
      ((access (.crcUpdate 0x01)).readsRxState = true → busy.rxState = hunting.rxState) ∧
      ((access (.crcUpdate 0x01)).readsRxBuf = true → busy.rxBuf = hunting.rxBuf) ∧ busy ≠ hunting) ∧
    (((access (.rxByte 0x01)).readsCrc = true → busy.crc = ({ busy with crc := 0 } : State).crc) ∧
      ((access (.rxByte 0x01)).readsRxState = true → busy.rxState = ({ busy with crc := 0 } : State).rxState) ∧
      ((access (.rxByte 0x01)).readsRxBuf = true → busy.rxBuf = ({ busy with crc := 0 } : State).rxBuf) ∧
      busy ≠ { busy with crc := 0 }) := by decide

/-- Two interleavings of a CRC operation, a received byte and a send. -/
theorem witness_UnitsAreIndependentUnderInterleaving :
    (∃ t, execAll [.crcUpdate 0x01, .rxByte 0x24, .encode 0x11 0x01 0x10 []] State.reset = .next t) ∧
    (∃ t, execAll [.encode 0x11 0x01 0x10 [], .rxByte 0x24, .crcUpdate 0x01] State.reset = .next t) ∧
    [Instr.crcUpdate 0x01, .rxByte 0x24, .encode 0x11 0x01 0x10 []].filter (fun i => (access i).writesCrc)
      = [Instr.encode 0x11 0x01 0x10 [], .rxByte 0x24, .crcUpdate 0x01].filter (fun i => (access i).writesCrc) ∧
    [Instr.crcUpdate 0x01, .rxByte 0x24, .encode 0x11 0x01 0x10 []].filter (fun i => (access i).writesRx)
      = [Instr.encode 0x11 0x01 0x10 [], .rxByte 0x24, .crcUpdate 0x01].filter (fun i => (access i).writesRx) ∧
    [Instr.crcUpdate 0x01, .rxByte 0x24, .encode 0x11 0x01 0x10 []].filter (fun i => (access i).emits)
      = [Instr.encode 0x11 0x01 0x10 [], .rxByte 0x24, .crcUpdate 0x01].filter (fun i => (access i).emits) :=
  ⟨⟨_, rfl⟩, ⟨_, rfl⟩, rfl, rfl, rfl⟩

/-- The fullest buffer: 262 bytes with LEN = 255. -/
def fullest : State := { busy with rxBuf := [0x24, 0x11, 0x01, 0x22, 0xFF] ++ zeros 257 }

theorem fullest_rxOk : fullest.RxOk :=
  ⟨rfl, by intro len h; obtain rfl : (0xFF : Byte) = len := Option.some.inj h; decide⟩

theorem busy_rxOk : busy.RxOk := ⟨rfl, fun len h => absurd h (by simp [busy])⟩

theorem witness_AssemblerInvariantKept :
    (hunting.RxOk ∧ hunting.rxState = .hunt) ∧ (busy.RxOk ∧ busy.rxState = .collect) ∧
    (fullest.RxOk ∧ fullest.rxBuf[4]? = some 0xFF ∧ fullest.rxBuf.length = 262) ∧ (∃ t, step busy = .next t) :=
  ⟨⟨rfl, rfl⟩, ⟨busy_rxOk, rfl⟩, ⟨fullest_rxOk, rfl, rfl⟩, ⟨_, rfl⟩⟩

/-- A state in which WHO_AM_I has been sent, its first byte taken, and a frame begun; STOP is presented next. -/
def working : State :=
  { crc := 0x5A, rxState := .collect, rxBuf := [0x24, 0x01, 0x11], tx := whoAmIFrame, txTaken := 1
    responses := [.ok (.bytes whoAmIFrame), .pending, .pending, .pending]
    inbox := [.issue (encode (.stop 0x11 0x01 [])), .txTake] }

theorem working_inv : working.Inv := by
  refine ⟨⟨rfl, fun len h => absurd h (by simp [working])⟩, ⟨rfl, ?_, by decide⟩, ?_, ?_⟩
  · intro f hf
    obtain rfl : f = whoAmIFrame := by simpa [working, framesSent] using hf
    exact ⟨0x11, 0x01, 0x10, [], by decide, rfl⟩
  · intro buf h; simp [working] at h
  · intro f h; simp [working] at h

theorem witness_StepKeepsInvariant : working.Inv ∧ ∃ t, step working = .next t := ⟨working_inv, _, rfl⟩

theorem witness_WireOrderIsSendOrder : working.Inv ∧ ∃ t, Host.Core.run Sys2Proof.core 2 working = .next t :=
  ⟨working_inv, _, rfl⟩

theorem witness_LinkTakesBytesInOrder : busy.inbox = .txTake :: [] ∧ busy.tx[busy.txTaken]? = some 0xBB := ⟨rfl, rfl⟩

/-- ENCODE with 256 bytes, then RX_BYTE. -/
theorem witness_ErrorHasNoEffect :
    ∃ t u, exec (.encode 0x11 0x01 0x22 (zeros 256)) busy = .next t ∧
      t.responses = busy.responses ++ [.err (.encodeError 256)] ∧ exec (.rxByte 0x24) busy = .next u :=
  ⟨_, _, rfl, rfl, rfl⟩

/-- An error of each of the three operations that raise one. -/
theorem witness_ErrorsByOperation :
    (∃ t, exec (.encode 0x11 0x01 0x22 (zeros 256)) busy = .next t ∧
      t.responses = busy.responses ++ [.err (.encodeError 256)]) ∧
    (∃ t, exec (.decode [0x24]) busy = .next t ∧
      t.responses = busy.responses ++ [.err (.malformedFrame (.tooShort 1))]) ∧
    (∃ t, exec (.respCheck 0x11 0x01 0x34 ⟨0x01, 0x12, 0x34, [], 0x00⟩) busy = .next t ∧
      t.responses = busy.responses ++ [.err (.unexpectedResponse .wrongSource 0x12 0x11)]) :=
  ⟨⟨_, rfl, rfl⟩, ⟨_, rfl, rfl⟩, ⟨_, rfl, rfl⟩⟩

theorem witness_RegistersResetByInitAndFlush :
    ([Instr.crcInit, .rxFlush] = [.crcInit, .rxFlush] ∨ [Instr.crcInit, .rxFlush] = [.rxFlush, .crcInit]) ∧
    ([Instr.rxFlush, .crcInit] = [.crcInit, .rxFlush] ∨ [Instr.rxFlush, .crcInit] = [.rxFlush, .crcInit]) ∧
    ∃ t, exec (.stop 0x11 0x01 []) busy = .next t := ⟨.inl rfl, .inr rfl, _, rfl⟩

theorem witness_DecodeEncodeRoundTrip :
    Instr.wellFormed (.setDipoleMomentSetpoint 0xFF 0x00 (zeros 255)) = true ∧
    Instr.wellFormed (.respCheck 0xFF 0x00 0x34 ⟨0x01, 0x11, 0x34, zeros 255, 0x00⟩) = true ∧
    Instr.wellFormed (.encode 0xFF 0x00 0x34 (zeros 256)) = true := by decide

/-- A record, the frame of a catalog command, and the frame of an unassigned one. -/
theorem witness_DecodedIsTheEncoding :
    decode initRequest = .ok .crcInit ∧ decode (.wire whoAmIFrame) = .ok (.whoAmI 0x11 0x01 []) ∧
    decode (.wire [0x24, 0x00, 0x00, 0x00, 0x00, 0x3A, 0x00, 0x0A]) = .ok (.encode 0x00 0x00 0x00 []) := ⟨rfl, rfl, rfl⟩

theorem witness_WireFrameNamedByCommandByte : (zeros 255).length ≤ 255 ∧ ([] : Bytes).length ≤ 255 := by decide

theorem witness_ChecksumIsLinear : ([0x01, 0x00] : Bytes).length = ([0x00, 0x01] : Bytes).length := rfl

/-- The first and the last bit of a sequence. -/
theorem witness_SingleBitChangesChecksum :
    (0 < ([0x11, 0x01] : Bytes).length ∧ 7 < 8) ∧ (1 < ([0x11, 0x01] : Bytes).length ∧ 0 < 8) := by decide

theorem witness_IncrementalAgreesWithPure :
    [Instr.crcUpdate 0x11, .rxByte 0x24, .crcRead, .crcUpdate 0x01].filter (fun i => (access i).writesCrc)
      = crcBytes [0x11, 0x01] := rfl

theorem witness_OnlyCrcOperationsUseRegister :
    (Instr.crcRead ≠ .crcInit ∧ ∀ b, Instr.crcRead ≠ .crcUpdate b) ∧
    (Instr.crcInit ≠ .crcRead ∧ ∀ b, Instr.crcInit ≠ .crcUpdate b) :=
  ⟨⟨nofun, nofun⟩, ⟨nofun, nofun⟩⟩

theorem witness_EncodeSendsFrame : (zeros 255).length ≤ 255 ∧ 255 < (zeros 256).length := by decide
theorem witness_EncodedFrameLayout : ([] : Bytes).length ≤ 255 ∧ (zeros 255).length ≤ 255 := by decide
theorem witness_EncodeDecodeRoundTrip : ([] : Bytes).length ≤ 255 ∧ (zeros 255).length ≤ 255 := by decide
theorem witness_CommandsSendRequestFrame : ([] : Bytes).length ≤ 255 ∧ (zeros 255).length ≤ 255 := by decide
theorem witness_CommandsRejectLongPayload : 255 < (zeros 256).length := by decide

/-- A buffer of 7 bytes, and one of 8 with each position read. -/
theorem witness_DecodeReportsFirstFailingCheck :
    (whoAmIFrame.take 7).length < 8 ∧ 8 ≤ whoAmIFrame.length ∧ whoAmIFrame[0]? = some 0x24 ∧
    whoAmIFrame[1]? = some 0x11 ∧ whoAmIFrame[2]? = some 0x01 ∧ whoAmIFrame[3]? = some 0x10 ∧
    whoAmIFrame[4]? = some 0x00 ∧ whoAmIFrame[whoAmIFrame.length - 3]? = some 0x3A ∧
    whoAmIFrame[whoAmIFrame.length - 2]? = some 0x4D ∧ whoAmIFrame[whoAmIFrame.length - 1]? = some 0x0A := by decide

/-- The accepted buffer of DV1, and a flip in the first and in the last position of each clause. -/
theorem witness_SingleBitErrorIsDetected :
    exec (.decode whoAmIFrame) busy = .next (Claims.answered busy (.ok (.frame ⟨0x11, 0x01, 0x10, [], 0x4D⟩))) ∧
    (∀ i ∈ [0, 1, 4, 5, 6, 7], i < whoAmIFrame.length) ∧ 7 < 8 ∧ whoAmIFrame.length - 4 = 4 ∧
    whoAmIFrame.length - 3 = 5 ∧ whoAmIFrame.length - 2 = 6 ∧ whoAmIFrame.length - 1 = 7 :=
  ⟨rfl, by decide, by decide, rfl, rfl, rfl, rfl⟩

theorem witness_AcceptanceIsDecodeThenCheck :
    exec (.decode whoAmIFrame) busy = .next (Claims.answered busy (.ok (.frame ⟨0x11, 0x01, 0x10, [], 0x4D⟩))) ∧
    accepted 0x01 0x11 0x10 whoAmIFrame = some ⟨0x11, 0x01, 0x10, [], 0x4D⟩ := ⟨rfl, rfl⟩

theorem witness_EchoPassesOnlyEqualAddresses :
    ([] : Bytes).length ≤ 255 ∧ (0x05 : Byte) = 0x05 ∧ (0x11 : Byte) ≠ 0x01 := by decide

/-- Each branch of RX_BYTE. The frame of LEN 0 is complete with its 8th byte and not with its 7th; before the fifth
byte nothing is. -/
theorem witness_RxByteAssembles :
    hunting.rxState = .hunt ∧ (0x25 : Byte) ≠ 0x24 ∧ busy.rxState = .collect ∧
    (∃ len : Byte, 5 ≤ (whoAmIFrame.take 7).length + 1 ∧ (whoAmIFrame.take 7 ++ [0x0A])[4]? = some len ∧
      (whoAmIFrame.take 7).length + 1 = (len.setWidth 16 + 8#16).toNat) ∧
    ¬ (∃ len : Byte, 5 ≤ (whoAmIFrame.take 6).length + 1 ∧ (whoAmIFrame.take 6 ++ [0x4D])[4]? = some len ∧
      (whoAmIFrame.take 6).length + 1 = (len.setWidth 16 + 8#16).toNat) ∧
    ¬ (∃ len : Byte, 5 ≤ busy.rxBuf.length + 1 ∧ (busy.rxBuf ++ [0x24])[4]? = some len ∧
      busy.rxBuf.length + 1 = (len.setWidth 16 + 8#16).toNat) := by
  refine ⟨rfl, by decide, rfl, ⟨0x00, by decide, rfl, by decide⟩, ?_, ?_⟩
  · rintro ⟨len, -, h, e⟩
    obtain rfl : (0x00 : Byte) = len := Option.some.inj h
    exact absurd e (by decide)
  · rintro ⟨len, h, -⟩
    exact absurd h (by decide)

/-- The last byte of E11's frame, of 263 bytes. -/
theorem witness_CompletedBufferShape :
    fullest.RxOk ∧ ∃ t, exec (.rxByte 0x0A) fullest = .next t ∧
      t.responses = fullest.responses ++ [.complete (fullest.rxBuf ++ [0x0A])] := ⟨fullest_rxOk, _, rfl, rfl⟩

theorem witness_AssemblerReturnsEncodedFrame :
    hunting.rxState = .hunt ∧ ∃ v, exec (.encode 0x11 0x01 0x10 []) busy = .next v ∧
      v.responses = busy.responses ++ [.ok (.bytes whoAmIFrame)] := ⟨rfl, _, rfl, rfl⟩

theorem witness_FlushAndJunkThenFrame :
    (zeros 255).length ≤ 255 ∧ ∀ b ∈ ([0x00, 0xFF] : Bytes), b ≠ 0x24 := by decide

/-- The longest payload that is sent and the shortest that is not, and a reply that is accepted. -/
theorem witness_TransactionResendsUntilAccepted :
    (zeros 255).length ≤ 255 ∧ 255 < (zeros 256).length ∧
    accepted 0x11 0x01 (cmdId .getStatus) [0x24, 0x01, 0x11, 0x34, 0x01, 0x00, 0x3A, 0xBA, 0x0A]
      = some ⟨0x01, 0x11, 0x34, [0x00], 0xBA⟩ := ⟨by decide, by decide, rfl⟩

end Sys2Proof.Tests
end

section
/-! The reset values of the block's own state (10_state.md R29). -/

namespace Sys2Proof.Machine

/-- `CRC_INIT`, which R29's table gives as `0x00`. -/
@[simp] theorem State.reset_crc : State.reset.crc = 0x00 := rfl

@[simp] theorem State.reset_rxState : State.reset.rxState = .hunt := rfl

@[simp] theorem State.reset_rxBuf : State.reset.rxBuf = [] := rfl

@[simp] theorem State.reset_tx : State.reset.tx = [] := rfl

/-- Settles O1, one row of R29's table at a time. -/
theorem resetValues : Obligations.ResetValues :=
  ⟨State.reset_crc, State.reset_rxState, State.reset_rxBuf, State.reset_tx⟩

end Sys2Proof.Machine
end

section
/-! What the decoder rejects, the step refuses (30_encoding.md R55). -/

namespace Sys2Proof

/-- A record whose code names no select is rejected before its operands are looked at. -/
theorem decode_op_of_ofCode_none (op : BitVec 4) (operands : List Operand) (h : Select.ofCode op = none) :
    decode (.op ⟨op, operands⟩) = .error (.reservedSelect op) := by simp [decode, decodeOp, h]

end Sys2Proof

namespace Sys2Proof.Machine

/-- The refusing branch of a step, which `step_cases` does not speak of: the refusal carries the decoder's reason. -/
theorem step_refuses_of_decode_error (s : State) (r : Request) (rest : List Event) (why : DecodeError)
    (hs : s.inbox = .issue r :: rest) (hd : decode r = .error why) : step s = .refused (.notAnOperation why) := by
  simp [step, State.nextEvent_cons s _ _ hs, hd]

/-- Settles O4: a reserved code names no select, so the decoder rejects the record and the step refuses it. -/
theorem reservedSelectIsRefused : Obligations.ReservedSelectIsRefused := by
  intro s op operands rest hop hs
  have hd := decode_op_of_ofCode_none op operands (Select.ofCode_reserved op hop)
  exact ⟨hd, step_refuses_of_decode_error s _ rest _ hs hd⟩

end Sys2Proof.Machine
end

section
/-! The checksum against the remainder of M(x)·x^8 by G(x) over GF(2) (40_crc.md R60, R63). -/

open Polynomial

namespace Sys2Proof.Claims

open Machine

/-- G(x) is x^8 and the polynomial of `0xEB` (R60). -/
theorem generator_eq : generator = X ^ 8 + bytePoly Config.crcPoly := by
  have hpoly : bytePoly Config.crcPoly = 1 + X + X ^ 3 + X ^ 5 + X ^ 6 + X ^ 7 := by
    simp [bytePoly, Finset.sum_range_succ]
  rw [generator, hpoly]
  ring

@[simp] theorem bytePoly_zero : bytePoly 0#8 = 0 := by simp [bytePoly]

/-- Adding over GF(2) is the XOR of the coefficients. -/
theorem bytePoly_xor (a b : Byte) : bytePoly (a ^^^ b) = bytePoly a + bytePoly b := by
  have hcoeff (p q : Bool) (k : ℕ) : (if (p ^^ q) = true then X ^ k else 0 : (ZMod 2)[X])
      = (if p = true then X ^ k else 0) + (if q = true then X ^ k else 0) := by
    cases p <;> cases q <;> simp [CharTwo.add_self_eq_zero]
  simp only [bytePoly, BitVec.getLsbD_xor, hcoeff, Finset.sum_add_distrib]

/-- Shifting left multiplies by x, but for the bit shifted out. -/
theorem bytePoly_mul_X (t : Byte) :
    bytePoly t * X = bytePoly (t <<< 1) + if t.msb then X ^ 8 else 0 := by
  have hlow : (t <<< 1).getLsbD 0 = false := by simp
  have hup : ∀ k < 7, (t <<< 1).getLsbD (k + 1) = t.getLsbD k := by
    intro k hk
    simpa using fun _ => Nat.succ_lt_succ hk
  have hmsb : t.msb = t.getLsbD 7 := BitVec.msb_eq_getLsbD_last t
  calc bytePoly t * X
      = ∑ k ∈ Finset.range 8, if t.getLsbD k then X ^ (k + 1) else 0 := by
        simp only [bytePoly, Finset.sum_mul, ite_mul, zero_mul, ← pow_succ]
    _ = (∑ k ∈ Finset.range 7, if t.getLsbD k then X ^ (k + 1) else 0) + if t.msb then X ^ 8 else 0 := by
        rw [Finset.sum_range_succ, hmsb]
    _ = (∑ k ∈ Finset.range 7, if (t <<< 1).getLsbD (k + 1) then X ^ (k + 1) else 0)
          + if t.msb then X ^ 8 else 0 := by
        congr 1
        exact Finset.sum_congr rfl fun k hk => by rw [hup k (Finset.mem_range.1 hk)]
    _ = bytePoly (t <<< 1) + if t.msb then X ^ 8 else 0 := by
        rw [bytePoly, Finset.sum_range_succ' _ 7, hlow]
        simp

theorem degree_bytePoly_lt (b : Byte) : (bytePoly b).degree < 8 := by
  have hterm : ∀ k ∈ Finset.range 8,
      (if b.getLsbD k then X ^ k else 0 : (ZMod 2)[X]) ∈ degreeLT (ZMod 2) 8 := by
    intro k hk
    rw [mem_degreeLT]
    split
    · rw [degree_X_pow]
      exact_mod_cast Finset.mem_range.1 hk
    · exact bot_lt_iff_ne_bot.2 nofun
  exact mem_degreeLT.1 (Submodule.sum_mem _ hterm)

theorem generator_monic : generator.Monic := by
  rw [generator_eq]
  exact monic_X_pow_add (degree_bytePoly_lt Config.crcPoly)

theorem degree_generator : generator.degree = 8 := by
  rw [generator_eq, degree_add_eq_left_of_degree_lt] <;> rw [degree_X_pow]
  · rfl
  · exact degree_bytePoly_lt Config.crcPoly

theorem seqPoly_append_singleton (m : Bytes) (b : Byte) :
    seqPoly (m ++ [b]) = seqPoly m * X ^ 8 + bytePoly b := by
  simp [seqPoly]

/-- A byte's polynomial is its own remainder. -/
theorem bytePoly_modByMonic (b : Byte) : bytePoly b %ₘ generator = bytePoly b := by
  rw [modByMonic_eq_self_iff generator_monic, degree_generator]
  exact degree_bytePoly_lt b

/-- Taking the remainder of a factor first does not change the remainder. -/
theorem modByMonic_mul_modByMonic (p q : (ZMod 2)[X]) :
    ((p %ₘ generator) * q) %ₘ generator = (p * q) %ₘ generator := by
  have hself : (p %ₘ generator) %ₘ generator = p %ₘ generator :=
    (modByMonic_eq_self_iff generator_monic).2 (degree_modByMonic_lt p generator_monic)
  rw [mul_modByMonic, hself, ← mul_modByMonic]

/-- Over GF(2), x^8 and the polynomial of `0xEB` differ by G(x). -/
theorem X_pow_eight_modByMonic : X ^ 8 %ₘ generator = bytePoly Config.crcPoly := by
  have hsum : X ^ 8 = generator + bytePoly Config.crcPoly := by
    rw [generator_eq, add_assoc, CharTwo.add_self_eq_zero, add_zero]
  rw [hsum, add_modByMonic, modByMonic_self generator_monic, zero_add, bytePoly_modByMonic]

end Sys2Proof.Claims

namespace Sys2Proof.Machine

open Claims

/-- A round of R61 multiplies by x and takes the remainder: x^8 is what is shifted out, `0xEB` what is XORed in. -/
theorem bytePoly_crcShift (t : Byte) : bytePoly (crcShift t) = (bytePoly t * X) %ₘ generator := by
  rw [bytePoly_mul_X, add_modByMonic, bytePoly_modByMonic, crcShift, bytePoly_xor]
  congr 1
  split
  · rw [X_pow_eight_modByMonic]
  · rw [zero_modByMonic]; exact bytePoly_zero

theorem bytePoly_crcShift_iterate (n : ℕ) (t : Byte) :
    bytePoly (crcShift^[n] t) = (bytePoly t * X ^ n) %ₘ generator := by
  induction n with
  | zero => simp [bytePoly_modByMonic]
  | succ n ih =>
    rw [Function.iterate_succ_apply', bytePoly_crcShift, ih, modByMonic_mul_modByMonic, mul_assoc, pow_succ]

/-- A byte step adds the byte to the register and multiplies by x^8, modulo G(x). -/
theorem bytePoly_crcStep (c b : Byte) :
    bytePoly (crcStep c b) = ((bytePoly c + bytePoly b) * X ^ 8) %ₘ generator := by
  rw [crcStep_eq, bytePoly_crcShift_iterate, bytePoly_xor]

theorem bytePoly_crc8 (m : Bytes) : bytePoly (crc8 m) = (seqPoly m * X ^ 8) %ₘ generator := by
  induction m using List.reverseRecOn with
  | nil => simp [seqPoly]
  | append_singleton m b ih =>
    calc bytePoly (crc8 (m ++ [b]))
        = ((bytePoly (crc8 m) + bytePoly b) * X ^ 8) %ₘ generator := by
          rw [crc8_append_singleton, bytePoly_crcStep]
      _ = ((seqPoly m * X ^ 8 + bytePoly b) %ₘ generator * X ^ 8) %ₘ generator := by
          rw [add_modByMonic, bytePoly_modByMonic, ih]
      _ = (seqPoly (m ++ [b]) * X ^ 8) %ₘ generator := by
          rw [modByMonic_mul_modByMonic, seqPoly_append_singleton]

/-- Settles O29: by induction on the sequence, each byte step multiplying by x^8 modulo G(x). -/
theorem checksumIsPolynomialRemainder : Obligations.ChecksumIsPolynomialRemainder :=
  ⟨generator_eq, bytePoly_crc8⟩

end Sys2Proof.Machine
end

section
/-! The byte step, the checksum and the CRC unit's operations against the spec's loop on numbers (40_crc.md R61, R62,
R66 to R69). -/

namespace Sys2Proof.Machine

/-- One round of R61: dropping bit 7 by the width is masking with `0xFF`, and bit 7 is the bit tested. -/
theorem crcShift_toNat (t : Byte) : (crcShift t).toNat = Claims.loopRound t.toNat := by
  have hmask : (t <<< 1).toNat = (t.toNat <<< 1) &&& 0xFF := by
    rw [BitVec.toNat_shiftLeft, ← Nat.and_two_pow_sub_one_eq_mod]
  have hmsb : t.msb = t.toNat.testBit 7 := BitVec.msb_eq_getLsbD_last t
  rw [crcShift, Claims.loopRound, BitVec.toNat_xor, hmask, hmsb]
  cases t.toNat.testBit 7 with
  | true => rfl
  | false => exact Nat.xor_zero _

/-- Settles O27: round for round, from the XOR of register and byte. -/
theorem byteStepIsTheLoop : Obligations.ByteStepIsTheLoop := by
  intro c b
  have hrounds : Function.Semiconj BitVec.toNat crcShift Claims.loopRound := crcShift_toNat
  rw [crcStep_eq, (hrounds.iterate_right 8).eq, BitVec.toNat_xor, Claims.loopStep]

/-- The register on the spec's numbers (R61). -/
theorem crcStep_eq_ofNat_loopStep (c b : Byte) :
    crcStep c b = BitVec.ofNat 8 (Claims.loopStep c.toNat b.toNat) := by
  rw [← byteStepIsTheLoop c b, BitVec.ofNat_toNat, BitVec.setWidth_eq]

/-- The register and the loop's number stay equal over a sequence (R62). -/
theorem foldl_crcStep_toNat (m : Bytes) (c : Byte) :
    (m.foldl crcStep c).toNat = m.foldl (fun c b => Claims.loopStep c b.toNat) c.toNat := by
  induction m generalizing c with
  | nil => rfl
  | cons b m ih => rw [List.foldl_cons, List.foldl_cons, ih, byteStepIsTheLoop c b]

theorem crc8_toNat (m : Bytes) : (crc8 m).toNat = Claims.loopCrc m := by
  rw [crc8_eq_foldl, foldl_crcStep_toNat, Claims.loopCrc, Nat.xor_zero]; rfl

theorem exec_crcInit (s : State) : exec .crcInit s = .next ((s.setCrc Config.crcInit).answer .unit) := rfl

theorem exec_crcUpdate (b : Byte) (s : State) :
    exec (.crcUpdate b) s = .next ((s.setCrc (crcStep s.crc b)).answer .unit) := rfl

theorem exec_crcRead (s : State) : exec .crcRead s = .next (s.answer (.byte s.crc)) := by
  rw [exec, execCrcRead, crcResult_eq]

theorem exec_crcCompute (data : Bytes) (s : State) :
    exec (.crcCompute data) s = .next (s.answer (.byte (crc8 data))) := rfl

/-- Settles O23. -/
theorem crcInitClearsRegister : Obligations.CrcInitClearsRegister :=
  ⟨rfl, exec_crcInit⟩

/-- Settles O24: the register goes by the byte step, which is the spec's loop. -/
theorem crcUpdateFeedsByte : Obligations.CrcUpdateFeedsByte := by
  intro b s
  rw [← crcStep_eq_ofNat_loopStep]
  exact ⟨rfl, exec_crcUpdate b s⟩

/-- Settles O25. -/
theorem crcReadAnswersRegister : Obligations.CrcReadAnswersRegister :=
  ⟨rfl, exec_crcRead⟩

/-- Settles O26: the answer is `crc8(data)`, which is the spec's loop over `data`. -/
theorem crcComputeAnswersChecksum : Obligations.CrcComputeAnswersChecksum := by
  intro data s
  rw [← crc8_toNat, BitVec.ofNat_toNat, BitVec.setWidth_eq]
  exact ⟨rfl, exec_crcCompute data s⟩

end Sys2Proof.Machine
end

section
/-! The byte step against the spec's table (40_crc.md R64). -/

namespace Sys2Proof.Machine

theorem crcTable_getElem? : ∀ i : Byte, Claims.crcTable[i.toNat]? = some (crcStep 0x00 i) := by
  decide

/-- Settles O28: a byte step sees only the XOR of register and byte, and for `0x00` and one byte it is the table's
entry. -/
theorem byteStepIsTheTable : Obligations.ByteStepIsTheTable := by
  refine ⟨fun c b => ?_, crcTable_getElem?⟩
  rw [crcStep_eq_zero_xor]
  exact crcTable_getElem? (c ^^^ b)

end Sys2Proof.Machine
end

section
/-! ENCODE's two outcomes in the spec's own forms, and the layout of the frame it sends (41_frame_encoder.md R71 to
R75). -/

namespace Sys2Proof.Machine

/-- The spec's frame, byte by byte, is the one the model builds (30_encoding.md R47). -/
theorem wireFrame_eq_buildFrame (dst src cmd : Byte) (p : Bytes) :
    Claims.wireFrame dst src cmd p = buildFrame dst src cmd p := rfl

theorem sendFrame_of_le (dst src cmd : Byte) (p : Bytes) (s : State) (h : p.length ≤ 255) :
    sendFrame dst src cmd p s = Claims.sent dst src cmd p s := by
  rw [sendFrame, encodeFrame_ok dst src cmd p h, ← wireFrame_eq_buildFrame]
  rfl

theorem sendFrame_of_lt (dst src cmd : Byte) (p : Bytes) (s : State) (h : 255 < p.length) :
    sendFrame dst src cmd p s = Claims.answered s (.err (.encodeError p.length)) := by
  rw [sendFrame, encodeFrame_error dst src cmd p h]
  rfl

theorem exec_encode (dst src cmd : Byte) (p : Bytes) (s : State) :
    exec (.encode dst src cmd p) s = .next (sendFrame dst src cmd p s) := rfl

theorem exec_encode_of_le (dst src cmd : Byte) (p : Bytes) (s : State) (h : p.length ≤ 255) :
    exec (.encode dst src cmd p) s = .next (Claims.sent dst src cmd p s) := by
  rw [exec_encode, sendFrame_of_le dst src cmd p s h]

theorem exec_encode_of_lt (dst src cmd : Byte) (p : Bytes) (s : State) (h : 255 < p.length) :
    exec (.encode dst src cmd p) s = .next (Claims.answered s (.err (.encodeError p.length))) := by
  rw [exec_encode, sendFrame_of_lt dst src cmd p s h]

/-- DECODE of a buffer that passes the checks answers the Frame read from it and does nothing else (R76). -/
theorem exec_decode_of_parseFrame_ok (buf : Bytes) (f : Frame) (s : State) (h : parseFrame buf = .ok f) :
    exec (.decode buf) s = .next (Claims.answered s (.ok (.frame f))) := by
  rw [exec, execDecode, checkBuffer, h]
  rfl

theorem buildFrame_getElem?_len (dst src cmd : Byte) (p : Bytes) :
    (buildFrame dst src cmd p)[4]? = some (lenByte p.length) := rfl

theorem buildFrame_payload (dst src cmd : Byte) (p : Bytes) :
    ((buildFrame dst src cmd p).drop 5).take p.length = p := by
  simp [buildFrame_split]

/-- The bytes that the checksum covers, where they stand in the frame (R48). -/
theorem buildFrame_body (dst src cmd : Byte) (p : Bytes) :
    ((buildFrame dst src cmd p).drop 1).take (4 + p.length) = frameBody dst src cmd p := by
  have hlen : 4 + p.length = (frameBody dst src cmd p).length := by rw [frameBody_length, Nat.add_comm]
  rw [hlen, buildFrame, List.append_assoc, List.singleton_append, List.drop_one, List.tail_cons, List.take_left]

/-- The checksum stands after the start byte, the bytes it covers and the separator. -/
theorem buildFrame_getElem?_checksum (dst src cmd : Byte) (p : Bytes) :
    (buildFrame dst src cmd p)[6 + p.length]? = some (crc8 (frameBody dst src cmd p)) := by
  have hpos : 6 + p.length = ([Config.sof] ++ frameBody dst src cmd p).length + 1 := by
    simp only [List.length_append, List.length_singleton, frameBody_length]; omega
  rw [hpos, buildFrame, List.getElem?_append_right (Nat.le_add_right _ 1), Nat.add_sub_cancel_left]
  rfl

/-- Settles O39: the frame ENCODE answers parses to its own fields, and DECODE answers what the parse gives. -/
theorem encodeDecodeRoundTrip : Obligations.EncodeDecodeRoundTrip := by
  intro dst src cmd p h s s'
  exact ⟨_, buildFrame dst src cmd p, crc8 (frameBody dst src cmd p), exec_encode_of_le dst src cmd p s h, rfl,
    buildFrame_getElem?_checksum dst src cmd p,
    exec_decode_of_parseFrame_ok _ _ s' (parseFrame_buildFrame dst src cmd p h)⟩

/-- Settles O37, one clause of the layout at a time. -/
theorem encodedFrameLayout : Obligations.EncodedFrameLayout := by
  intro dst src cmd p s h
  refine ⟨buildFrame dst src cmd p, lenByte p.length, _, exec_encode_of_le dst src cmd p s h, rfl,
    buildFrame_length dst src cmd p, buildFrame_getElem?_len dst src cmd p, lenByte_toNat p.length h,
    buildFrame_payload dst src cmd p, ?_⟩
  rw [buildFrame_body]
  exact buildFrame_getElem?_checksum dst src cmd p

/-- Settles O36. -/
theorem encodeSendsFrame : Obligations.EncodeSendsFrame :=
  fun dst src cmd p s => ⟨rfl, exec_encode_of_le dst src cmd p s, exec_encode_of_lt dst src cmd p s⟩

/-- Settles O38: the payload's length alone decides between the frame and the error, which emits nothing. -/
theorem retryEmitsSameBytes : Obligations.RetryEmitsSameBytes := by
  intro dst src cmd p s s'
  obtain h | h := le_or_gt p.length 255
  · exact ⟨_, _, Claims.wireFrame dst src cmd p, .ok (.bytes (Claims.wireFrame dst src cmd p)),
      exec_encode_of_le dst src cmd p s h, exec_encode_of_le dst src cmd p s' h, rfl, rfl, rfl, rfl⟩
  · exact ⟨_, _, [], .err (.encodeError p.length), exec_encode_of_lt dst src cmd p s h,
      exec_encode_of_lt dst src cmd p s' h, (List.append_nil _).symm, (List.append_nil _).symm, rfl, rfl⟩

end Sys2Proof.Machine
end

section
/-! What one flipped bit does to a sequence, and the checksum's sensitivity to it (40_crc.md R65, law 5). -/

namespace Sys2Proof.Claims

open Machine

/-- A flip inside the first part leaves the second. -/
theorem flipBit_append_left (a b : Bytes) (i k : Nat) (h : i < a.length) :
    flipBit (a ++ b) i k = flipBit a i k ++ b := by
  induction a generalizing i with
  | nil => exact absurd h (Nat.not_lt_zero i)
  | cons x a ih =>
    cases i with
    | zero => rfl
    | succ i => exact congrArg (x :: ·) (ih i (Nat.lt_of_succ_lt_succ h))

/-- A flip past the first part leaves it. -/
theorem flipBit_append_right (a b : Bytes) (i k : Nat) :
    flipBit (a ++ b) (a.length + i) k = a ++ flipBit b i k :=
  List.modifyTailIdx_add _ i a b

@[simp] theorem flipBit_length (m : Bytes) (i k : Nat) : (flipBit m i k).length = m.length :=
  List.length_modify _ m i

theorem xor_bit_ne (b : Byte) (k : Nat) (hk : k < 8) : b ^^^ (1#8 <<< k) ≠ b := by
  have hbit : 1#8 <<< k ≠ 0#8 := by decide +revert
  simpa using hbit

end Sys2Proof.Claims

namespace Sys2Proof.Machine

/-- Equal registers after a byte step had equal XORs of register and byte before it. -/
theorem crcStep_inj {c d a b : Byte} (h : crcStep c a = crcStep d b) : c ^^^ a = d ^^^ b := by
  have hzero : crcStep 0#8 ((c ^^^ d) ^^^ (a ^^^ b)) = 0#8 := by
    rw [← crcStep_eq_zero_xor, crcStep_xor, h, BitVec.xor_self]
  have hxor : (c ^^^ a) ^^^ (d ^^^ b) = 0#8 := by
    rw [← crcStep_zero_eq_zero _ hzero]; ac_rfl
  exact BitVec.xor_eq_zero_iff.1 hxor

/-- No sequence brings two different registers together. -/
theorem foldl_crcStep_injective (m : Bytes) : Function.Injective (m.foldl crcStep) := by
  induction m with
  | nil => exact Function.injective_id
  | cons b m ih =>
    intro c d h
    exact (BitVec.xor_left_inj b).1 (crcStep_inj (ih h))

/-- Another byte in the same place, another checksum. -/
theorem crc8_byte_ne (a m : Bytes) {b c : Byte} (h : b ≠ c) : crc8 (a ++ b :: m) ≠ crc8 (a ++ c :: m) := by
  intro he
  rw [crc8_append, crc8_append] at he
  exact h ((BitVec.xor_right_inj _).1 (crcStep_inj (foldl_crcStep_injective m he)))

theorem crc8_flipBit_ne (m : Bytes) (i k : Nat) (hi : i < m.length) (hk : k < 8) :
    crc8 (Claims.flipBit m i k) ≠ crc8 m := by
  obtain ⟨a, b, rest, rfl, -, hflip⟩ := List.exists_of_modify (fun b : Byte => b ^^^ (1#8 <<< k)) hi
  rw [Claims.flipBit, hflip]
  exact crc8_byte_ne a rest (Claims.xor_bit_ne b k hk)

end Sys2Proof.Machine
end

section
/-! DECODE and RESP_CHECK as the responses they give (42_frame_decoder.md R76, R82). -/

namespace Sys2Proof.Claims

open Machine

/-- Different responses leave different states. -/
theorem answered_inj {s : State} {r r' : Response} : answered s r = answered s r' ↔ r = r' := by
  simp [answered]

/-- The response to an operation whose checks end in `r`. -/
def responseOf {α : Type} (value : α → Value) (r : Except BlockError α) : Response :=
  match r with
  | .ok a => .ok (value a)
  | .error e => .err e

@[simp] theorem responseOf_ok {α : Type} (value : α → Value) (a : α) :
    responseOf value (.ok a) = .ok (value a) := rfl

@[simp] theorem responseOf_error {α : Type} (value : α → Value) (e : BlockError) :
    responseOf value (.error e) = .err e := rfl

end Sys2Proof.Claims

namespace Sys2Proof.Machine

open Claims

theorem exec_decode (buf : Bytes) (s : State) :
    exec (.decode buf) s = .next (answered s (responseOf .frame (parseFrame buf))) := by
  rw [exec, execDecode, checkBuffer]
  cases parseFrame buf <;> rfl

theorem exec_respCheck (reqDst reqSrc reqCmd : Byte) (rsp : Frame) (s : State) :
    exec (.respCheck reqDst reqSrc reqCmd rsp) s
      = .next (answered s (responseOf (fun _ => .unit) (matchResponse reqDst reqSrc reqCmd rsp))) := by
  rw [exec, execRespCheck, checkResponse]
  cases matchResponse reqDst reqSrc reqCmd rsp <;> rfl

/-- DECODE answers exactly the Frame that the checks give. -/
theorem exec_decode_eq_ok_iff (buf : Bytes) (f : Frame) (s : State) :
    exec (.decode buf) s = .next (answered s (.ok (.frame f))) ↔ parseFrame buf = .ok f := by
  rw [exec_decode, Host.Outcome.next.injEq, answered_inj]
  cases parseFrame buf <;> simp

theorem exec_decode_of_parseFrame_error (buf : Bytes) (e : BlockError) (s : State) (h : parseFrame buf = .error e) :
    exec (.decode buf) s = .next (answered s (.err e)) := by
  rw [exec_decode, h, responseOf_error]

theorem exec_respCheck_eq_ok_iff (reqDst reqSrc reqCmd : Byte) (rsp : Frame) (s : State) :
    exec (.respCheck reqDst reqSrc reqCmd rsp) s = .next (answered s (.ok .unit)) ↔
      matchResponse reqDst reqSrc reqCmd rsp = .ok () := by
  rw [exec_respCheck, Host.Outcome.next.injEq, answered_inj]
  cases matchResponse reqDst reqSrc reqCmd rsp <;> simp

/-- Settles O46, one check at a time. -/
theorem respCheckMatchesSwappedAddresses : Obligations.RespCheckMatchesSwappedAddresses := by
  intro reqDst reqSrc reqCmd rsp s
  refine ⟨rfl, ?_⟩
  rw [exec_respCheck, matchResponse]
  by_cases hdst : rsp.dst = reqSrc
  · by_cases hsrc : rsp.src = reqDst
    · by_cases hcmd : rsp.cmd = reqCmd <;> simp [hdst, hsrc, hcmd]
    · simp [hdst, hsrc]
  · simp [hdst]

end Sys2Proof.Machine
end

section
/-! A buffer of at least 8 bytes by its parts, as `parseFrame_split` reads it: what stands at each position of
42_frame_decoder.md R76. -/

namespace Sys2Proof.Machine

open Claims

section
variable (b0 b1 b2 b3 b4 e2 e1 e0 : Byte) (mid : Bytes)

theorem split_length : ([b0, b1, b2, b3, b4] ++ mid ++ [e2, e1, e0]).length = mid.length + 8 := by
  simp

theorem split_getElem?_sep : ([b0, b1, b2, b3, b4] ++ mid ++ [e2, e1, e0])[mid.length + 5]? = some e2 := by
  simp

theorem split_getElem?_checksum : ([b0, b1, b2, b3, b4] ++ mid ++ [e2, e1, e0])[mid.length + 6]? = some e1 := by
  simp

theorem split_getElem?_stop : ([b0, b1, b2, b3, b4] ++ mid ++ [e2, e1, e0])[mid.length + 7]? = some e0 := by
  simp

/-- The bytes that the checksum covers. -/
theorem split_body :
    (([b0, b1, b2, b3, b4] ++ mid ++ [e2, e1, e0]).drop 1).take (mid.length + 4) = [b1, b2, b3, b4] ++ mid := by
  simp

theorem split_payload : (([b0, b1, b2, b3, b4] ++ mid ++ [e2, e1, e0]).drop 5).take mid.length = mid := by
  simp

end

/-- Settles O42: the checks on a buffer by its parts, each part at the position the rule names. -/
theorem decodeReportsFirstFailingCheck : Obligations.DecodeReportsFirstFailingCheck := by
  intro buf s
  refine ⟨rfl, responseOf .frame (parseFrame buf), exec_decode buf s, fun hshort => ?_, fun hlong => ?_⟩
  · rw [parseFrame_short buf hshort, responseOf_error]
  · obtain ⟨b0, b1, b2, b3, b4, mid, e2, e1, e0, rfl⟩ := split_buffer buf hlong
    intro start dst src cmd len sep sum stop h0 h1 h2 h3 h4 hsep hsum hstop
    rw [split_length] at *
    obtain rfl : b0 = start := Option.some.inj h0
    obtain rfl : b1 = dst := Option.some.inj h1
    obtain rfl : b2 = src := Option.some.inj h2
    obtain rfl : b3 = cmd := Option.some.inj h3
    obtain rfl : b4 = len := Option.some.inj h4
    obtain rfl : e2 = sep := Option.some.inj ((split_getElem?_sep ..).symm.trans hsep)
    obtain rfl : e1 = sum := Option.some.inj ((split_getElem?_checksum ..).symm.trans hsum)
    obtain rfl : e0 = stop := Option.some.inj ((split_getElem?_stop ..).symm.trans hstop)
    rw [parseFrame_split, Nat.add_sub_cancel, show mid.length + 8 - 4 = mid.length + 4 from rfl, split_body]
    simp only [apply_ite (responseOf Value.frame), responseOf_ok, responseOf_error]
    by_cases hlen : b4.toNat = mid.length
    · rw [hlen, split_payload]
      rfl
    · simp only [if_pos (show b4.toNat ≠ mid.length from hlen)]
      rfl

/-- Settles O43: an accepted buffer is the frame of its fields, and a buffer with the five requirements passes every
check on its parts. -/
theorem decodeAcceptsExactlyFrames : Obligations.DecodeAcceptsExactlyFrames := by
  intro buf s
  simp only [exec_decode_eq_ok_iff]
  constructor
  · rintro ⟨f, hf⟩
    obtain ⟨rfl, hp, -⟩ := parseFrame_ok buf f hf
    have hlen := lenByte_toNat f.payload.length hp
    refine ⟨lenByte f.payload.length, rfl, rfl, ?_⟩
    rw [hlen, buildFrame_body, buildFrame_length]
    refine ⟨?_, ?_, Nat.add_sub_cancel .., Nat.le_add_left .., buildFrame_getElem?_checksum ..⟩
    · rw [buildFrame_split, Nat.add_comm]
      exact split_getElem?_sep ..
    · rw [buildFrame_split]
      exact split_getElem?_stop ..
  · rintro ⟨len, h0, h4, hsep, hstop, hlen, h8, hsum⟩
    obtain ⟨b0, b1, b2, b3, b4, mid, e2, e1, e0, rfl⟩ := split_buffer buf h8
    rw [split_length] at hstop hlen
    obtain rfl : b4 = len := Option.some.inj h4
    rw [← hlen, Nat.add_sub_cancel, Nat.add_comm] at hsep hsum
    rw [Nat.add_comm 4, split_body] at hsum
    obtain rfl : b0 = 0x24 := Option.some.inj h0
    obtain rfl : e2 = 0x3A := Option.some.inj ((split_getElem?_sep ..).symm.trans hsep)
    obtain rfl : e1 = _ := Option.some.inj ((split_getElem?_checksum ..).symm.trans hsum)
    obtain rfl : e0 = 0x0A := Option.some.inj ((split_getElem?_stop ..).symm.trans hstop)
    refine ⟨⟨b1, b2, b3, mid, crc8 ([b1, b2, b3, b4] ++ mid)⟩, ?_⟩
    rw [parseFrame_split]
    simp [← hlen, Config.sof, Config.sep, Config.eof]

/-- Settles O47: both checks end in Ok, and an accepted buffer holds its own checksum. -/
theorem acceptanceIsDecodeThenCheck : Obligations.AcceptanceIsDecodeThenCheck := by
  refine ⟨fun reqDst reqSrc reqCmd buf rsp s => ?_, fun buf rsp s h => ?_⟩
  · rw [accepted_eq_some, exec_decode_eq_ok_iff, exec_respCheck_eq_ok_iff]
  · obtain ⟨rfl, -, -⟩ := parseFrame_ok buf rsp ((exec_decode_eq_ok_iff buf rsp s).1 h)
    rw [buildFrame_length, show rsp.payload.length + 8 - 2 = 6 + rsp.payload.length by omega,
      show rsp.payload.length + 8 - 4 = 4 + rsp.payload.length by omega, buildFrame_body]
    exact buildFrame_getElem?_checksum ..

end Sys2Proof.Machine
end

section
/-! One flipped bit of a frame, by the byte it stands in (42_frame_decoder.md R79). -/

namespace Sys2Proof.Machine

open Claims

/-- A frame around bytes that do not have its checksum, whatever they declare as their length. -/
theorem parseFrame_of_crc8_ne (body : Bytes) (sum : Byte) (h4 : 4 ≤ body.length) (h : crc8 body ≠ sum) :
    parseFrame ([Config.sof] ++ body ++ [Config.sep, sum, Config.eof])
      = .error (.checksumMismatch sum (crc8 body)) := by
  match body, h4 with
  | b1 :: b2 :: b3 :: b4 :: mid, _ =>
    refine (parseFrame_split Config.sof b1 b2 b3 b4 Config.sep sum Config.eof mid).trans ?_
    have hne : crc8 ([b1, b2, b3, b4] ++ mid) ≠ sum := h
    rw [if_neg (not_not.2 rfl), if_neg (not_not.2 rfl), if_neg (not_not.2 rfl), if_pos hne]
    rfl

section
variable (dst src cmd : Byte) (p : Bytes) (k : Nat)

/-- A flip in one of the three bytes behind the covered ones. -/
theorem flipBit_buildFrame_tail (j : Nat) :
    flipBit (buildFrame dst src cmd p) (p.length + 5 + j) k = [Config.sof, dst, src, cmd, lenByte p.length] ++ p ++
      flipBit [Config.sep, crc8 ([dst, src, cmd, lenByte p.length] ++ p), Config.eof] j k := by
  have hpos : p.length + 5 = ([Config.sof, dst, src, cmd, lenByte p.length] ++ p).length := by simp
  rw [buildFrame_split, hpos, flipBit_append_right]

variable (hk : k < 8)
include hk

theorem parseFrame_flip_start :
    ∃ b, parseFrame (flipBit (buildFrame dst src cmd p) 0 k) = .error (.malformedFrame (.badStart b)) := by
  refine ⟨Config.sof ^^^ (1#8 <<< k), ?_⟩
  rw [buildFrame_split]
  exact (parseFrame_split ..).trans (if_pos (xor_bit_ne _ k hk))

/-- A flip in one of the bytes that the checksum covers changes the checksum and not the byte it is compared with. -/
theorem parseFrame_flip_body (i : Nat) (hi : i < p.length + 4) :
    ∃ received computed,
      parseFrame (flipBit (buildFrame dst src cmd p) (1 + i) k) = .error (.checksumMismatch received computed) := by
  have hbody : i < (frameBody dst src cmd p).length := by rwa [frameBody_length]
  have hflip : flipBit (buildFrame dst src cmd p) (1 + i) k = [Config.sof] ++ flipBit (frameBody dst src cmd p) i k
      ++ [Config.sep, crc8 (frameBody dst src cmd p), Config.eof] := by
    rw [buildFrame, List.append_assoc, List.append_assoc, ← flipBit_append_left _ _ _ _ hbody]
    exact flipBit_append_right [Config.sof] _ i k
  rw [hflip]
  exact ⟨_, _, parseFrame_of_crc8_ne _ _ (by simp) (crc8_flipBit_ne _ i k hbody hk)⟩

theorem parseFrame_flip_sep :
    ∃ b, parseFrame (flipBit (buildFrame dst src cmd p) (p.length + 5) k)
      = .error (.malformedFrame (.badSeparator b)) := by
  refine ⟨Config.sep ^^^ (1#8 <<< k), ?_⟩
  rw [← Nat.add_zero (p.length + 5), flipBit_buildFrame_tail]
  exact (parseFrame_split ..).trans (by simp [xor_bit_ne _ k hk])

/-- A flip in the checksum leaves the bytes it is computed from. -/
theorem parseFrame_flip_checksum :
    ∃ received computed, parseFrame (flipBit (buildFrame dst src cmd p) (p.length + 6) k)
      = .error (.checksumMismatch received computed) := by
  rw [flipBit_buildFrame_tail dst src cmd p k 1]
  exact ⟨_, _, parseFrame_of_crc8_ne (frameBody dst src cmd p) _ (by simp) (xor_bit_ne _ k hk).symm⟩

theorem parseFrame_flip_stop :
    ∃ b, parseFrame (flipBit (buildFrame dst src cmd p) (p.length + 7) k) = .error (.malformedFrame (.badEnd b)) := by
  refine ⟨Config.eof ^^^ (1#8 <<< k), ?_⟩
  rw [flipBit_buildFrame_tail dst src cmd p k 2]
  exact (parseFrame_split ..).trans (by simp [xor_bit_ne _ k hk])

end

/-- The bytes of a frame: start, covered by the checksum, separator, checksum, end. -/
theorem frame_index_cases (i n : Nat) (hi : i < n + 8) :
    i = 0 ∨ (∃ j < n + 4, i = 1 + j) ∨ i = n + 5 ∨ i = n + 6 ∨ i = n + 7 := by
  by_cases hbody : 1 ≤ i ∧ i < n + 5
  · exact .inr (.inl ⟨i - 1, by omega, by omega⟩)
  · omega

/-- Settles O44, by the byte of the frame in which the bit stands. -/
theorem singleBitErrorIsDetected : Obligations.SingleBitErrorIsDetected := by
  intro buf s f i k hdec hi hk
  obtain ⟨rfl, -, -⟩ := parseFrame_ok buf f ((exec_decode_eq_ok_iff buf f s).1 hdec)
  rw [buildFrame_length] at hi ⊢
  obtain rfl | ⟨j, hj, rfl⟩ | rfl | rfl | rfl := frame_index_cases i f.payload.length hi
  · obtain ⟨b, hb⟩ := parseFrame_flip_start f.dst f.src f.cmd f.payload k hk
    exact ⟨_, exec_decode_of_parseFrame_error _ _ s hb, fun _ => ⟨b, rfl⟩, by omega, by omega, by omega⟩
  · obtain ⟨r, c, hb⟩ := parseFrame_flip_body f.dst f.src f.cmd f.payload k hk j hj
    exact ⟨_, exec_decode_of_parseFrame_error _ _ s hb, by omega, by omega, by omega, fun _ => ⟨r, c, rfl⟩⟩
  · obtain ⟨b, hb⟩ := parseFrame_flip_sep f.dst f.src f.cmd f.payload k hk
    exact ⟨_, exec_decode_of_parseFrame_error _ _ s hb, by omega, by omega, fun _ => ⟨b, rfl⟩, by omega⟩
  · obtain ⟨r, c, hb⟩ := parseFrame_flip_checksum f.dst f.src f.cmd f.payload k hk
    exact ⟨_, exec_decode_of_parseFrame_error _ _ s hb, by omega, by omega, by omega, fun _ => ⟨r, c, rfl⟩⟩
  · obtain ⟨b, hb⟩ := parseFrame_flip_stop f.dst f.src f.cmd f.payload k hk
    exact ⟨_, exec_decode_of_parseFrame_error _ _ s hb, by omega, fun _ => ⟨b, rfl⟩, by omega, by omega⟩

end Sys2Proof.Machine
end

section
/-! The receive assembler: each branch of RX_BYTE, when a buffer is whole, and a whole frame fed byte by byte
(43_rx_assembler.md R85, R86, R88). -/

namespace Sys2Proof.Machine

theorem exec_rxByte_of_hunt (b : Byte) (s : State) (h : s.rxState = .hunt) :
    exec (.rxByte b) s = .next (huntByte b s) := by
  rw [exec, execRxByte, receiveByte, h]

theorem exec_rxByte_of_collect (b : Byte) (s : State) (h : s.rxState = .collect) :
    exec (.rxByte b) s = .next (collectByte b s) := by
  rw [exec, execRxByte, receiveByte, h]

/-- HUNT, the start byte. -/
theorem exec_rxByte_sof (s : State) (h : s.rxState = .hunt) :
    exec (.rxByte Config.sof) s = .next { s with
      rxState := .collect, rxBuf := [Config.sof], responses := s.responses ++ [.pending] } := by
  rw [exec_rxByte_of_hunt _ s h, huntByte, if_pos rfl]
  rfl

/-- HUNT, any other byte. -/
theorem exec_rxByte_junk (b : Byte) (s : State) (h : s.rxState = .hunt) (hb : b ≠ Config.sof) :
    exec (.rxByte b) s = .next (Claims.answered s .discarded) := by
  rw [exec_rxByte_of_hunt b s h, huntByte, if_neg hb]
  rfl

/-- COLLECT, the byte that makes the frame whole. -/
theorem exec_rxByte_last (b : Byte) (s : State) (h : s.rxState = .collect) (hd : frameDone (s.rxBuf ++ [b]) = true) :
    exec (.rxByte b) s = .next { s with
      rxState := .hunt, rxBuf := [], responses := s.responses ++ [.complete (s.rxBuf ++ [b])] } := by
  rw [exec_rxByte_of_collect b s h, collectByte, if_pos hd]
  rfl

/-- COLLECT, a byte after which the frame is not whole. -/
theorem exec_rxByte_more (b : Byte) (s : State) (h : s.rxState = .collect) (hd : frameDone (s.rxBuf ++ [b]) = false) :
    exec (.rxByte b) s = .next { s with
      rxBuf := s.rxBuf ++ [b], responses := s.responses ++ [.pending] } := by
  rw [exec_rxByte_of_collect b s h, collectByte, if_neg (Bool.eq_false_iff.1 hd), ← h]
  rfl

theorem exec_rxFlush (s : State) : exec .rxFlush s = .next (flushRx s) := rfl

/-- The assembler's test in R85's words: LEN is in, and the buffer has `zext_16(LEN) + 8` bytes. -/
theorem frameDone_append_singleton_iff (buf : Bytes) (b : Byte) :
    frameDone (buf ++ [b]) = true ↔ ∃ len : Byte, 5 ≤ buf.length + 1 ∧ (buf ++ [b])[4]? = some len ∧
      buf.length + 1 = (len.setWidth 16 + 8#16).toNat := by
  simp only [frameDone_iff, frameLength_eq_zext16, frameLength, frameOverhead_eq, List.length_append,
    List.length_singleton]
  refine exists_congr fun len => ⟨fun ⟨hlen, hn⟩ => ⟨by omega, hlen, hn⟩, fun ⟨_, hlen, hn⟩ => ⟨hlen, hn⟩⟩

/-- Settles O50, one branch of R85 at a time. -/
theorem rxByteAssembles : Obligations.RxByteAssembles := by
  intro b s
  rw [← frameDone_append_singleton_iff, Bool.not_eq_true]
  refine ⟨rfl, ?_, exec_rxByte_junk b s, exec_rxByte_last b s, exec_rxByte_more b s⟩
  rintro h rfl
  exact exec_rxByte_sof s h

/-- Settles O51. -/
theorem rxFlushDropsPartialFrame : Obligations.RxFlushDropsPartialFrame := ⟨rfl, exec_rxFlush⟩

/-- The length a frame declares is reached once: what comes before its last byte is not whole. -/
theorem frameDone_of_prefix_of_length_lt {g f : Bytes} (hg : g <+: f) (hlt : g.length < f.length)
    (hf : frameDone f = true) : frameDone g = false := by
  obtain ⟨rest, rfl⟩ := hg
  rw [Bool.eq_false_iff, ne_eq, frameDone_iff]
  rintro ⟨len, hlen, hn⟩
  obtain ⟨len', hlen', hn'⟩ := (frameDone_iff _).1 hf
  rw [List.getElem?_append_left (by omega), hlen] at hlen'
  obtain rfl : len = len' := Option.some.inj hlen'
  omega

theorem frameDone_buildFrame (dst src cmd : Byte) (p : Bytes) (h : p.length ≤ 255) :
    frameDone (buildFrame dst src cmd p) = true :=
  (frameDone_iff _).2 ⟨lenByte p.length, buildFrame_getElem?_len dst src cmd p, by
    rw [buildFrame_length, lenByte_toNat _ h]⟩

theorem rxStream_append (m n : Bytes) : rxStream (m ++ n) = rxStream m ++ rxStream n := List.map_append

/-- `s` after the assembler took `g` from HUNT, as the first bytes of a frame that is not yet whole. -/
def State.collecting (s : State) (g : Bytes) : State :=
  { s with rxState := .collect, rxBuf := g, responses := s.responses ++ List.replicate g.length .pending }

/-- The start of a frame is collected with one Pending for each byte, as long as no part of it is whole: induction on
the bytes behind SOF, the last one split off. -/
theorem execAll_rxStream_collecting (m : Bytes) (s : State) (hs : s.rxState = .hunt)
    (hopen : ∀ g, g <+: Config.sof :: m → frameDone g = false) :
    execAll (rxStream (Config.sof :: m)) s = .next (s.collecting (Config.sof :: m)) := by
  induction m using List.reverseRecOn with
  | nil => exact execAll_cons _ _ _ _ (exec_rxByte_sof s hs)
  | append_singleton m b ih =>
    have hprefix : Config.sof :: m <+: Config.sof :: (m ++ [b]) := List.prefix_append (Config.sof :: m) [b]
    have hlast := exec_rxByte_more b (s.collecting (Config.sof :: m)) rfl (hopen _ (List.prefix_refl _))
    rw [← List.cons_append, rxStream_append, execAll_append _ _ _ _ (ih fun g hg => hopen g (hg.trans hprefix))]
    refine (execAll_cons _ _ _ _ hlast).trans ?_
    simp [State.collecting, List.replicate_succ']

/-- Bytes from SOF on that are whole with the last of them, and so not before, come back as they were fed. -/
theorem execAll_rxStream_of_frameDone (m : Bytes) (b : Byte) (s : State) (hs : s.rxState = .hunt)
    (hdone : frameDone (Config.sof :: m ++ [b]) = true) :
    execAll (rxStream (Config.sof :: m ++ [b])) s = .next { s with
      rxBuf := []
      responses := s.responses ++ List.replicate (m.length + 1) .pending
        ++ [.complete (Config.sof :: m ++ [b])] } := by
  have hopen : ∀ g, g <+: Config.sof :: m → frameDone g = false := fun g hg =>
    frameDone_of_prefix_of_length_lt (hg.trans (List.prefix_append _ [b]))
      (by simpa [Nat.lt_succ_iff] using hg.length_le) hdone
  rw [rxStream_append, execAll_append _ _ _ _ (execAll_rxStream_collecting m s hs hopen), hs]
  exact execAll_cons _ _ _ _ (exec_rxByte_last b (s.collecting (Config.sof :: m)) rfl hdone)

/-- A frame by consecutive RX_BYTE from HUNT (R88). -/
theorem execAll_rxStream_buildFrame (dst src cmd : Byte) (p : Bytes) (s : State) (hs : s.rxState = .hunt)
    (hp : p.length ≤ 255) :
    execAll (rxStream (buildFrame dst src cmd p)) s = .next { s with
      rxBuf := []
      responses := s.responses ++ List.replicate (p.length + 7) .pending
        ++ [.complete (buildFrame dst src cmd p)] } := by
  have hsplit : buildFrame dst src cmd p
      = Config.sof :: (frameBody dst src cmd p ++ [Config.sep, crc8 (frameBody dst src cmd p)]) ++ [Config.eof] := by
    simp [buildFrame]
  have hdone := frameDone_buildFrame dst src cmd p hp
  rw [hsplit] at hdone ⊢
  rw [execAll_rxStream_of_frameDone _ _ s hs hdone]
  simp

/-- ENCODE answers a frame only for a payload that fits, and then the frame of its operands. -/
theorem encode_answers_frame {dst src cmd : Byte} {p f : Bytes} {u v : State}
    (h : exec (.encode dst src cmd p) u = .next v) (hv : v.responses = u.responses ++ [.ok (.bytes f)]) :
    p.length ≤ 255 ∧ f = buildFrame dst src cmd p := by
  rw [exec_encode, Host.Outcome.next.injEq] at h
  obtain ⟨hp, hsend⟩ | ⟨-, hsend⟩ := sendFrame_cases dst src cmd p u
  · rw [← h, hsend] at hv
    exact ⟨hp, by simpa using hv.symm⟩
  · rw [← h, hsend] at hv
    simp at hv

/-- Settles O53: the frame ENCODE answered, collected byte by byte. -/
theorem assemblerReturnsEncodedFrame : Obligations.AssemblerReturnsEncodedFrame := by
  intro dst src cmd p s u v f hs henc hv
  obtain ⟨hp, rfl⟩ := encode_answers_frame henc hv
  rw [buildFrame_length]
  exact execAll_rxStream_buildFrame dst src cmd p s hs hp

end Sys2Proof.Machine
end

section
/-! The retry class of every error, the block's and the host's (60_exceptions.md R101). -/

namespace Sys2Proof.Machine

/-- The one error of the block that is not to be retried: a "caller bug" (R101). -/
@[simp] theorem BlockError.retryable_encodeError (n : Nat) : (BlockError.encodeError n).retryable = false := rfl

@[simp] theorem BlockError.retryable_malformedFrame (why : Malformed) :
    (BlockError.malformedFrame why).retryable = true := rfl

@[simp] theorem BlockError.retryable_lengthMismatch (declared : LengthField) (actual : Nat) :
    (BlockError.lengthMismatch declared actual).retryable = true := rfl

@[simp] theorem BlockError.retryable_checksumMismatch (received computed : Checksum) :
    (BlockError.checksumMismatch received computed).retryable = true := rfl

@[simp] theorem BlockError.retryable_unexpectedResponse (why : Mismatch) (got want : Byte) :
    (BlockError.unexpectedResponse why got want).retryable = true := rfl

/-- The one error of the host that is to be retried (R101). -/
@[simp] theorem HostError.retryable_timeout : HostError.timeout.retryable = true := rfl

@[simp] theorem HostError.retryable_communicationError : HostError.communicationError.retryable = false := rfl

@[simp] theorem HostError.retryable_rangeError : HostError.rangeError.retryable = false := rfl

/-- Settles O17, one row of R101's table at a time. -/
theorem retryClasses : Obligations.RetryClasses :=
  ⟨BlockError.retryable_encodeError, BlockError.retryable_malformedFrame, BlockError.retryable_lengthMismatch,
    BlockError.retryable_checksumMismatch, BlockError.retryable_unexpectedResponse, HostError.retryable_timeout,
    HostError.retryable_communicationError, HostError.retryable_rangeError⟩

end Sys2Proof.Machine
end

section
/-! The effect of every instruction, unit by unit, as the rules of the nine operations give it (40_crc.md R66 to R69,
41_frame_encoder.md R71, 42_frame_decoder.md R76 and R82, 43_rx_assembler.md R85 and R86): what it does to the CRC
register and to the assembler, what it emits and what it answers. -/

namespace Sys2Proof.Machine

open Claims

/-- The assembler: its mode and its buffer. -/
abbrev Rx := RxState × Bytes

def State.rx (s : State) : Rx := (s.rxState, s.rxBuf)

@[simp] theorem State.rx_fst (s : State) : s.rx.1 = s.rxState := rfl
@[simp] theorem State.rx_snd (s : State) : s.rx.2 = s.rxBuf := rfl

/-- RX_BYTE on the assembler, and what it answers: the four branches of R85. -/
def rxTake (b : Byte) : Rx → Rx × Response
  | (.hunt, buf) => if b = Config.sof then ((.collect, [b]), .pending) else ((.hunt, buf), .discarded)
  | (.collect, buf) =>
    if frameDone (buf ++ [b]) then ((.hunt, []), .complete (buf ++ [b])) else ((.collect, buf ++ [b]), .pending)

/-- An instruction's effect, as functions of the registers that the effect may depend on. -/
structure Effect where
  crc : Checksum → Checksum := id
  rx : Rx → Rx := id
  emitted : Bytes := []
  response : Checksum → Rx → Response

/-- The effect of a send (R71): the frame, emitted and answered, or the error. -/
def sendEffect (dst src : Address) (cmd : CommandId) (payload : Bytes) : Effect :=
  { emitted := (encodeFrame dst src cmd payload).toOption.getD []
    response := fun _ _ => responseOf .bytes (encodeFrame dst src cmd payload) }

/-- The effects of all instructions. A catalog command is the send of its request (notes/assumptions 3). -/
def effect : Instr → Effect
  | .crcInit => { crc := fun _ => Config.crcInit, response := fun _ _ => .ok .unit }
  | .crcUpdate b => { crc := fun c => crcStep c b, response := fun _ _ => .ok .unit }
  | .crcRead => { response := fun c _ => .ok (.byte c) }
  | .crcCompute data => { response := fun _ _ => .ok (.byte (crc8 data)) }
  | .encode dst src cmd p => sendEffect dst src cmd p
  | .decode buf => { response := fun _ _ => responseOf .frame (parseFrame buf) }
  | .respCheck dst src cmd rsp => { response := fun _ _ => responseOf (fun _ => .unit) (matchResponse dst src cmd rsp) }
  | .rxByte b => { rx := fun x => (rxTake b x).1, response := fun _ x => (rxTake b x).2 }
  | .rxFlush => { rx := fun _ => (.hunt, []), response := fun _ x => .ok (.count x.2.length) }
  | .whoAmI dst src p => sendEffect dst src (cmdId .whoAmI) p
  | .getTemperature dst src p => sendEffect dst src (cmdId .getTemperature) p
  | .getDipoleMoment dst src p => sendEffect dst src (cmdId .getDipoleMoment) p
  | .setDipoleMomentSetpoint dst src p => sendEffect dst src (cmdId .setDipoleMomentSetpoint) p
  | .start dst src p => sendEffect dst src (cmdId .start) p
  | .stop dst src p => sendEffect dst src (cmdId .stop) p
  | .getStatus dst src p => sendEffect dst src (cmdId .getStatus) p

/-- What `i` answers from `s`. -/
def State.response (s : State) (i : Instr) : Response := (effect i).response s.crc s.rx

/-- `s` after `i`. -/
def State.after (s : State) (i : Instr) : State :=
  { s with
    crc := (effect i).crc s.crc
    rxState := ((effect i).rx s.rx).1
    rxBuf := ((effect i).rx s.rx).2
    tx := s.tx ++ (effect i).emitted
    responses := s.responses ++ [s.response i] }

section
variable (s : State) (i : Instr)

@[simp] theorem State.after_crc : (s.after i).crc = (effect i).crc s.crc := rfl
@[simp] theorem State.after_rx : (s.after i).rx = (effect i).rx s.rx := rfl
@[simp] theorem State.after_tx : (s.after i).tx = s.tx ++ (effect i).emitted := rfl
@[simp] theorem State.after_txTaken : (s.after i).txTaken = s.txTaken := rfl
@[simp] theorem State.after_responses : (s.after i).responses = s.responses ++ [s.response i] := rfl
@[simp] theorem State.after_inbox : (s.after i).inbox = s.inbox := rfl

end

/-- Two states with equal assemblers have equal modes and equal buffers. -/
theorem State.rx_eq_iff {s t : State} : s.rx = t.rx ↔ s.rxState = t.rxState ∧ s.rxBuf = t.rxBuf := Prod.mk_inj

/-- Without an emission the transmit stream stays. -/
theorem State.after_of_silent (s : State) (i : Instr) (h : (effect i).emitted = []) :
    s.after i = { s with
      crc := (effect i).crc s.crc
      rxState := ((effect i).rx s.rx).1
      rxBuf := ((effect i).rx s.rx).2
      responses := s.responses ++ [s.response i] } := by
  rw [State.after, h, List.append_nil]

/-- Sending a frame has the effect of a send. -/
theorem sendFrame_eq (dst src : Address) (cmd : CommandId) (p : Bytes) (s : State) :
    sendFrame dst src cmd p s = { s with
      tx := s.tx ++ (sendEffect dst src cmd p).emitted
      responses := s.responses ++ [(sendEffect dst src cmd p).response s.crc s.rx] } := by
  rw [sendFrame, sendEffect]
  cases encodeFrame dst src cmd p with
  | ok f => rfl
  | error e => simp [State.raise, State.respond, Except.toOption]

theorem receiveByte_eq (b : Byte) (s : State) :
    receiveByte b s = { s with
      rxState := (rxTake b s.rx).1.1
      rxBuf := (rxTake b s.rx).1.2
      responses := s.responses ++ [(rxTake b s.rx).2] } := by
  obtain ⟨h, hb, e⟩ | ⟨h, hb, e⟩ | ⟨h, hd, e⟩ | ⟨h, hd, e⟩ := receiveByte_cases b s
  · rw [e, State.rx, h, rxTake, if_pos hb]; rfl
  · rw [e, State.rx, h, rxTake, if_neg hb, ← h]; rfl
  · rw [e, State.rx, h, rxTake, if_pos hd]; rfl
  · rw [e, State.rx, h, rxTake, if_neg (Bool.eq_false_iff.1 hd)]; rfl

/-- Every instruction is enabled in every state and has its effect (70_reset_and_hazards.md R117). -/
theorem exec_eq (i : Instr) (s : State) : exec i s = .next (s.after i) := by
  cases i with
  | crcInit => rw [State.after_of_silent _ _ rfl]; exact exec_crcInit s
  | crcUpdate b => rw [State.after_of_silent _ _ rfl]; exact exec_crcUpdate b s
  | crcRead => rw [State.after_of_silent _ _ rfl]; exact exec_crcRead s
  | crcCompute data => rw [State.after_of_silent _ _ rfl]; exact exec_crcCompute data s
  | decode buf => rw [State.after_of_silent _ _ rfl]; exact exec_decode buf s
  | respCheck dst src cmd rsp => rw [State.after_of_silent _ _ rfl]; exact exec_respCheck dst src cmd rsp s
  | rxByte b => rw [State.after_of_silent _ _ rfl]; exact congrArg _ (receiveByte_eq b s)
  | rxFlush => rw [State.after_of_silent _ _ rfl]; exact exec_rxFlush s
  | encode dst src cmd p => exact congrArg _ (sendFrame_eq dst src cmd p s)
  | _ dst src p => exact congrArg _ (sendFrame_eq dst src _ p s)

/-- What an instruction leads to is what its effect gives. -/
theorem exec_eq_next_iff {i : Instr} {s t : State} : exec i s = .next t ↔ t = s.after i := by
  rw [exec_eq, Host.Outcome.next.injEq, eq_comm]

/-- The one response that is added to the log is the effect's. -/
theorem State.after_responses_eq_iff {s : State} {i : Instr} {r : Response} :
    (s.after i).responses = s.responses ++ [r] ↔ s.response i = r := by simp

/-- Settles O5. -/
theorem everyOperationAnswersOnce : Obligations.EveryOperationAnswersOnce :=
  fun i s => ⟨s.after i, s.response i, exec_eq i s, rfl, rfl, rfl⟩

end Sys2Proof.Machine
end

section
/-! What the table of 20_memory.md R39 says of the effects: what an instruction that does not write a unit leaves, and
what the effects depend on. -/

namespace Sys2Proof.Machine

theorem effect_crc_of_not_writes {i : Instr} (h : (access i).writesCrc = false) : (effect i).crc = id := by
  cases i with
  | crcInit => cases h
  | crcUpdate b => cases h
  | _ => rfl

theorem effect_rx_of_not_writes {i : Instr} (h : (access i).writesRx = false) : (effect i).rx = id := by
  cases i with
  | rxByte b => cases h
  | rxFlush => cases h
  | _ => rfl

theorem effect_emitted_of_not_emits {i : Instr} (h : (access i).emits = false) : (effect i).emitted = [] := by
  cases i with
  | crcInit | crcUpdate | crcRead | crcCompute | decode | respCheck | rxByte | rxFlush => rfl
  | _ => cases h

/-- A written register depends only on what the row says is read. -/
theorem effect_crc_congr {i : Instr} {c c' : Checksum} (hw : (access i).writesCrc = true)
    (h : (access i).readsCrc = true → c = c') : (effect i).crc c = (effect i).crc c' := by
  cases i with
  | crcInit => rfl
  | crcUpdate b => rw [h rfl]
  | _ => cases hw

theorem effect_rx_congr {i : Instr} {x x' : Rx} (hw : (access i).writesRx = true)
    (hmode : (access i).readsRxState = true → x.1 = x'.1) (hbuf : (access i).readsRxBuf = true → x.2 = x'.2) :
    (effect i).rx x = (effect i).rx x' := by
  cases i with
  | rxByte b => rw [Prod.ext (hmode rfl) (hbuf rfl)]
  | rxFlush => rfl
  | _ => cases hw

theorem effect_response_congr {i : Instr} {c c' : Checksum} {x x' : Rx}
    (hcrc : (access i).readsCrc = true → c = c') (hmode : (access i).readsRxState = true → x.1 = x'.1)
    (hbuf : (access i).readsRxBuf = true → x.2 = x'.2) : (effect i).response c x = (effect i).response c' x' := by
  cases i with
  | crcRead => exact congrArg (fun c : Checksum => Response.ok (.byte c)) (hcrc rfl)
  | rxByte b => exact congrArg (fun x => (rxTake b x).2) (Prod.ext (hmode rfl) (hbuf rfl))
  | rxFlush => exact congrArg (fun buf : Bytes => Response.ok (.count buf.length)) (hbuf rfl)
  | _ => rfl

/-- Every instruction emits nothing, or is one of the eight sends, with the effect of ENCODE for some CMD byte. -/
theorem effect_send_or_silent (i : Instr) : (access i).emits = false ∨
    (access i = { emits := true } ∧ ∃ dst src cmd p, effect i = sendEffect dst src cmd p) := by
  cases i with
  | crcInit | crcUpdate | crcRead | crcCompute | decode | respCheck | rxByte | rxFlush => exact .inl rfl
  | encode dst src cmd p => exact .inr ⟨rfl, dst, src, cmd, p, rfl⟩
  | _ dst src p => exact .inr ⟨rfl, dst, src, _, p, rfl⟩

/-- A send emits a frame and answers it, or raises `EncodeError` and emits nothing (R71). -/
theorem sendEffect_cases (dst src cmd : Byte) (p : Bytes) :
    (p.length ≤ 255 ∧ (sendEffect dst src cmd p).emitted = buildFrame dst src cmd p ∧
      ∀ c x, (sendEffect dst src cmd p).response c x = .ok (.bytes (buildFrame dst src cmd p))) ∨
    (255 < p.length ∧ (sendEffect dst src cmd p).emitted = [] ∧
      ∀ c x, (sendEffect dst src cmd p).response c x = .err (.encodeError p.length)) := by
  obtain h | h := le_or_gt p.length 255
  · rw [sendEffect, encodeFrame_ok dst src cmd p h]
    exact .inl ⟨h, rfl, fun _ _ => rfl⟩
  · rw [sendEffect, encodeFrame_error dst src cmd p h]
    exact .inr ⟨h, rfl, fun _ _ => rfl⟩

end Sys2Proof.Machine
end

section
/-! Which instruction answers an error, and that an error is all it leaves (60_exceptions.md R99 to R102). -/

namespace Sys2Proof.Claims

open Machine

theorem responseOf_eq_err_iff {α : Type} {value : α → Value} {r : Except BlockError α} {e : BlockError} :
    responseOf value r = .err e ↔ r = .error e := by
  cases r <;> simp

end Sys2Proof.Claims

namespace Sys2Proof.Machine

open Claims

/-- The checks of DECODE raise codes 2 to 4 (R99), all of them to be retried (R101). -/
theorem parseFrame_error_code {buf : Bytes} {e : BlockError} (h : parseFrame buf = .error e) :
    (e.code = 2 ∨ e.code = 3 ∨ e.code = 4) ∧ e.retryable = true := by
  obtain hshort | hlong := lt_or_ge buf.length 8
  · rw [parseFrame_short buf hshort] at h
    cases h; exact ⟨.inl rfl, rfl⟩
  · obtain ⟨b0, b1, b2, b3, b4, mid, e2, e1, e0, rfl⟩ := split_buffer buf hlong
    rw [parseFrame_split] at h
    split at h
    · cases h; exact ⟨.inl rfl, rfl⟩
    split at h
    · cases h; exact ⟨.inl rfl, rfl⟩
    split at h
    · cases h; exact ⟨.inl rfl, rfl⟩
    split at h
    · cases h; exact ⟨.inr (.inr rfl), rfl⟩
    split at h
    · cases h; exact ⟨.inr (.inl rfl), rfl⟩
    cases h

/-- RX_BYTE raises no error. -/
theorem rxTake_ne_err (b : Byte) (x : Rx) (e : BlockError) : (rxTake b x).2 ≠ .err e := by
  rw [rxTake.eq_def]
  split <;> split <;> nofun

/-- The errors of RESP_CHECK are `UnexpectedResponse` (R82). -/
theorem matchResponse_error {dst src cmd : Byte} {rsp : Frame} {e : BlockError}
    (h : matchResponse dst src cmd rsp = .error e) : ∃ why got want, e = .unexpectedResponse why got want := by
  rw [matchResponse] at h
  split at h
  · cases h; exact ⟨_, _, _, rfl⟩
  split at h
  · cases h; exact ⟨_, _, _, rfl⟩
  split at h
  · cases h; exact ⟨_, _, _, rfl⟩
  cases h

/-- An error is a send's, DECODE's or RESP_CHECK's. -/
theorem State.response_eq_err {s : State} {i : Instr} {e : BlockError} (h : s.response i = .err e) :
    (access i = { emits := true } ∧ (effect i).emitted = [] ∧ ∃ n, e = .encodeError n) ∨
    (∃ buf, i = .decode buf ∧ parseFrame buf = .error e) ∨
    (∃ dst src cmd rsp, i = .respCheck dst src cmd rsp ∧ matchResponse dst src cmd rsp = .error e) := by
  obtain hsilent | ⟨hacc, dst, src, cmd, p, heff⟩ := effect_send_or_silent i
  · cases i with
    | decode buf => exact .inr (.inl ⟨buf, rfl, responseOf_eq_err_iff.1 h⟩)
    | respCheck dst src cmd rsp => exact .inr (.inr ⟨dst, src, cmd, rsp, rfl, responseOf_eq_err_iff.1 h⟩)
    | rxByte b => exact absurd h (rxTake_ne_err b s.rx e)
    | crcInit | crcUpdate | crcRead | crcCompute | rxFlush => cases h
    | _ => cases hsilent
  · rw [State.response, heff] at h
    obtain ⟨-, -, hr⟩ | ⟨-, he, hr⟩ := sendEffect_cases dst src cmd p <;> rw [hr] at h <;> cases h
    exact .inl ⟨hacc, by rw [heff, he], _, rfl⟩

/-- An error emits nothing and writes no unit. -/
theorem effect_of_err {s : State} {i : Instr} {e : BlockError} (h : s.response i = .err e) :
    (effect i).crc = id ∧ (effect i).rx = id ∧ (effect i).emitted = [] := by
  obtain ⟨hacc, hemit, -⟩ | ⟨buf, rfl, -⟩ | ⟨dst, src, cmd, rsp, rfl, -⟩ := State.response_eq_err h
  · exact ⟨effect_crc_of_not_writes (by rw [hacc]), effect_rx_of_not_writes (by rw [hacc]), hemit⟩
  · exact ⟨rfl, rfl, rfl⟩
  · exact ⟨rfl, rfl, rfl⟩

/-- An error is all that is left behind (R102). -/
theorem State.after_of_err {s : State} {i : Instr} {e : BlockError} (h : s.response i = .err e) :
    s.after i = answered s (.err e) := by
  obtain ⟨hcrc, hrx, hemit⟩ := effect_of_err h
  rw [State.after_of_silent s i hemit, hcrc, hrx, h]
  rfl

/-- Settles O15: no effect looks at the log of responses, which is all that an error changes. -/
theorem errorHasNoEffect : Obligations.ErrorHasNoEffect := by
  intro i s t e hexec hresp
  obtain rfl := exec_eq_next_iff.1 hexec
  rw [State.after_of_err (State.after_responses_eq_iff.1 hresp)]
  refine ⟨rfl, fun j u hu => ?_⟩
  obtain rfl := exec_eq_next_iff.1 hu
  exact ⟨s.response j, rfl, exec_eq j _⟩

/-- Settles O16. -/
theorem errorsByOperation : Obligations.ErrorsByOperation := by
  intro i s t e hexec hresp
  obtain rfl := exec_eq_next_iff.1 hexec
  obtain ⟨hacc, -, n, rfl⟩ | ⟨buf, rfl, he⟩ | ⟨dst, src, cmd, rsp, rfl, he⟩ :=
    State.response_eq_err (State.after_responses_eq_iff.1 hresp)
  · exact .inl ⟨by rw [hacc], rfl, rfl⟩
  · exact .inr (.inl ⟨⟨buf, rfl⟩, parseFrame_error_code he⟩)
  · obtain ⟨why, got, want, rfl⟩ := matchResponse_error he
    exact .inr (.inr ⟨⟨dst, src, cmd, rsp, rfl⟩, rfl, rfl⟩)

/-- Settles O8, one column of the table at a time. -/
theorem readWriteTable : Obligations.ReadWriteTable := by
  intro i s s' hcrc hmode hbuf
  have hresp : s.response i = s'.response i := effect_response_congr hcrc hmode hbuf
  refine ⟨s.after i, s'.after i, s.response i, (effect i).emitted, exec_eq i s, exec_eq i s', rfl, ?_, rfl, rfl,
    effect_emitted_of_not_emits, ?_, fun hw => effect_crc_congr hw hcrc, fun hw => ?_, fun hw => ?_, fun hw => ?_⟩
  · rw [hresp, State.after_responses]
  · rintro ⟨e, he⟩
    exact (effect_of_err he).2.2
  · rw [State.after_crc, effect_crc_of_not_writes hw, id]
  · rw [← State.rx_eq_iff]
    exact effect_rx_congr hw hmode hbuf
  · rw [← State.rx_eq_iff, State.after_rx, effect_rx_of_not_writes hw, id]

/-- Settles O35: the columns of the table that speak of the register. -/
theorem onlyCrcOperationsUseRegister : Obligations.OnlyCrcOperationsUseRegister := by
  intro i s
  refine ⟨fun hinit hupd => ⟨s.after i, exec_eq i s, ?_⟩, fun hread hupd c => ?_⟩
  · have hw : (access i).writesCrc = false := by
      cases i with
      | crcInit => exact absurd rfl hinit
      | crcUpdate b => exact absurd rfl (hupd b)
      | _ => rfl
    rw [State.after_crc, effect_crc_of_not_writes hw, id]
  · have hr : (access i).readsCrc = false := by
      cases i with
      | crcRead => exact absurd rfl hread
      | crcUpdate b => exact absurd rfl (hupd b)
      | _ => rfl
    have hresp : State.response { s with crc := c } i = s.response i :=
      effect_response_congr (fun h => absurd (hr.symm.trans h) nofun) (fun _ => rfl) (fun _ => rfl)
    exact ⟨s.after i, State.after { s with crc := c } i, exec_eq .., exec_eq ..,
      congrArg (fun r => { s.after i with responses := s.responses ++ [r] }) hresp⟩

/-- Settles O18: the flush and the initialisation overwrite what they reset, and an effect on the transmit stream is
an emission. -/
theorem registersResetByInitAndFlush : Obligations.RegistersResetByInitAndFlush := by
  refine ⟨fun s is his => ?_, fun i s t h => ?_⟩
  · obtain rfl | rfl := his
    · exact ⟨_, rfl, rfl, rfl, rfl, rfl⟩
    · exact ⟨_, rfl, rfl, rfl, rfl, rfl⟩
  · obtain rfl := exec_eq_next_iff.1 h
    exact List.prefix_append s.tx _

end Sys2Proof.Machine
end

section
/-! The encoder and the decoder undo each other (30_encoding.md R47, R53, R54; the wire form is notes/assumptions 4). -/

namespace Sys2Proof

open Machine

/-- A record is decoded by the row of its select. -/
theorem decode_opRequest (sel : Select) (operands : List Operand) :
    decode (opRequest sel operands) = decodeOperands sel operands := by
  simp [opRequest, decode, decodeOp, Select.ofCode_code]

/-- The request frame of a command is the command (R52). -/
theorem decode_wireRequest (c : Command) (dst src : Address) (p : Bytes) (h : p.length ≤ 255) :
    decode (wireRequest c dst src p) = .ok (commandInstr c dst src p) := by
  rw [wireRequest, decode_wire_buildFrame _ _ _ _ h, sendInstr, commandOf_cmdId]

theorem encode_commandInstr (c : Command) (dst src : Address) (p : Bytes) :
    encode (commandInstr c dst src p) = wireRequest c dst src p := by cases c <;> rfl

theorem wellFormed_commandInstr (c : Command) (dst src : Address) (p : Bytes) :
    (commandInstr c dst src p).wellFormed = decide (p.length ≤ 255) := by cases c <;> rfl

/-- Settles O19: the operations by the row of their select, the commands by their CMD byte. -/
theorem decodeEncodeRoundTrip : Obligations.DecodeEncodeRoundTrip := by
  intro i h
  cases i with
  | respCheck dst src cmd rsp => exact (decode_opRequest ..).trans (if_pos h)
  | crcInit | crcUpdate | crcRead | crcCompute | encode | decode | rxByte | rxFlush => exact decode_opRequest ..
  | whoAmI dst src p => exact decode_wireRequest .whoAmI dst src p (of_decide_eq_true h)
  | getTemperature dst src p => exact decode_wireRequest .getTemperature dst src p (of_decide_eq_true h)
  | getDipoleMoment dst src p => exact decode_wireRequest .getDipoleMoment dst src p (of_decide_eq_true h)
  | setDipoleMomentSetpoint dst src p =>
    exact decode_wireRequest .setDipoleMomentSetpoint dst src p (of_decide_eq_true h)
  | start dst src p => exact decode_wireRequest .start dst src p (of_decide_eq_true h)
  | stop dst src p => exact decode_wireRequest .stop dst src p (of_decide_eq_true h)
  | getStatus dst src p => exact decode_wireRequest .getStatus dst src p (of_decide_eq_true h)

/-- An operand list that a select accepts is the one that the encoder writes. -/
theorem decodeOperands_ok {sel : Select} {operands : List Operand} {i : Instr}
    (h : decodeOperands sel operands = .ok i) : i.wellFormed = true ∧ encode i = opRequest sel operands := by
  unfold decodeOperands at h
  split at h
  -- RESP_CHECK's row, whose Frame operand is checked, and the lists that are no row's
  case h_7 =>
    split at h
    case isTrue hf => cases h; exact ⟨hf, rfl⟩
    case isFalse => cases h
  case h_10 => cases h
  -- every other row
  all_goals cases h; exact ⟨rfl, rfl⟩

/-- An unassigned CMD byte is none of the seven (44_command_catalog.md R98). -/
theorem not_mem_of_commandOf_eq_none {cmd : Byte} (h : commandOf cmd = none) :
    cmd ∉ [0x10#8, 0x20, 0x21, 0x22, 0x25, 0x26, 0x34] := by
  have hids : [0x10#8, 0x20, 0x21, 0x22, 0x25, 0x26, 0x34] = catalog.map cmdId := rfl
  rw [hids, List.mem_map]
  rintro ⟨c, -, rfl⟩
  rw [commandOf_cmdId] at h
  cases h

/-- Settles O20: a record is the encoding of what it is read as, and so is a frame with an assigned CMD byte. -/
theorem decodedIsTheEncoding : Obligations.DecodedIsTheEncoding := by
  intro r i h
  cases r with
  | op r =>
    rw [decode, decodeOp] at h
    cases hsel : Select.ofCode r.op with
    | none => simp [hsel] at h
    | some sel =>
      rw [hsel] at h
      obtain ⟨hwf, henc⟩ := decodeOperands_ok h
      rw [opRequest, Select.code_of_ofCode _ _ hsel] at henc
      exact ⟨hwf, .inl henc⟩
  | wire bytes =>
    rw [decode, decodeWire] at h
    cases hf : parseFrame bytes with
    | error e => simp [hf] at h
    | ok f =>
      obtain ⟨rfl, hp, -⟩ := parseFrame_ok bytes f hf
      rw [hf] at h
      obtain rfl : sendInstr f = i := Except.ok.inj h
      rw [sendInstr]
      cases hc : commandOf f.cmd with
      | none =>
        exact ⟨rfl, .inr ⟨f.dst, f.src, f.cmd, f.payload, rfl, hp, not_mem_of_commandOf_eq_none hc, rfl⟩⟩
      | some c =>
        refine ⟨(wellFormed_commandInstr ..).trans (decide_eq_true hp), .inl ?_⟩
        rw [← cmdId_of_commandOf _ _ hc]
        exact encode_commandInstr ..

/-- Settles O22: the command of the CMD byte, if it has one. -/
theorem wireFrameNamedByCommandByte : Obligations.WireFrameNamedByCommandByte := by
  intro dst src cmd p hp
  rw [wireFrame_eq_buildFrame, decode_wire_buildFrame _ _ _ _ hp, sendInstr]
  cases hc : commandOf cmd with
  | some c =>
    obtain rfl := cmdId_of_commandOf cmd c hc
    cases c <;> rfl
  | none =>
    have hnot := not_mem_of_commandOf_eq_none hc
    simp only [List.mem_cons, not_or] at hnot
    obtain ⟨h10, h20, h21, h22, h25, h26, h34, -⟩ := hnot
    rw [if_neg (show ¬cmd = 0x10 from h10), if_neg h20, if_neg h21, if_neg h22, if_neg h25, if_neg h26, if_neg h34]

/-- Settles O21. -/
theorem writtenWordsDecode : Obligations.WrittenWordsDecode :=
  ⟨rfl, rfl, rfl, rfl, rfl, rfl⟩

end Sys2Proof
end

section
/-! The step, event by event, and runs of steps (30_encoding.md R53, 20_memory.md R38 and R40, 70_reset_and_hazards.md
R114 and R117). -/

namespace Sys2Proof.Machine

section
variable (s : State) (rest : List Event)

theorem step_of_idle (h : s.inbox = []) : step s = .next s := by
  rw [step, State.nextEvent_nil s h]

theorem step_of_txTake (h : s.inbox = .txTake :: rest) : step s = .next (State.takeTx { s with inbox := rest }) := by
  rw [step, State.nextEvent_cons s _ _ h]

theorem step_of_issue (r : Request) (i : Instr) (h : s.inbox = .issue r :: rest) (hd : decode r = .ok i) :
    step s = exec i { s with inbox := rest } := by
  rw [step, State.nextEvent_cons s _ _ h]
  simp only [hd]

end

/-- Settles O2, one event at a time. -/
theorem stepPerformsDecodedOperation : Obligations.StepPerformsDecodedOperation := by
  refine ⟨step_of_idle, fun s rest h => ?_, fun s r rest i h hd _ => step_of_issue s rest r i h hd⟩
  rw [step_of_txTake s rest h, State.takeTx]
  split <;> rfl

/-- Settles O3. -/
theorem presentedTableWordRuns : Obligations.PresentedTableWordRuns := by
  intro s nbits w i h
  have hd : decode (requestOfTableWord nbits w) = .ok i := by
    rw [decodeTableWord] at h
    cases hr : decode (requestOfTableWord nbits w) with
    | error e => rw [hr] at h; cases h
    | ok j => rw [hr] at h; cases h; rfl
  exact step_of_issue (s.withFetchWord nbits w) s.inbox _ i rfl hd

/-- Settles O14: the byte at the link's count is the next one taken. -/
theorem linkTakesBytesInOrder : Obligations.LinkTakesBytesInOrder := by
  intro s rest h
  refine ⟨_, step_of_txTake s rest h, State.takeTx_tx _, State.takeTx_taken _, fun b hb => ?_,
    State.takeTx_responses _⟩
  rw [State.takeTx_taken, State.taken, List.take_add_one, hb]
  rfl

/-- A step answers a next state as long as what is presented are operations, and they stay so. -/
theorem step_of_wellPresented (s : State) (h : s.WellPresented) : ∃ t, step s = .next t ∧ t.WellPresented := by
  match hin : s.inbox with
  | [] => exact ⟨s, step_of_idle s hin, h⟩
  | .txTake :: rest =>
    refine ⟨_, step_of_txTake s rest hin, fun r hr => h r ?_⟩
    rw [State.takeTx_inbox] at hr
    exact hin ▸ List.mem_cons_of_mem _ hr
  | .issue q :: rest =>
    obtain ⟨i, hd⟩ := h q (hin ▸ List.mem_cons_self)
    refine ⟨_, (step_of_issue s rest q i hin hd).trans (exec_eq i _), fun r hr => h r ?_⟩
    exact hin ▸ List.mem_cons_of_mem _ hr

/-- Settles O6, by induction on the number of steps. -/
theorem runNeverStops : Obligations.RunNeverStops := by
  intro n
  induction n with
  | zero => exact fun s h => ⟨s, rfl, h⟩
  | succ n ih =>
    intro s h
    obtain ⟨u, hstep, hu⟩ := step_of_wellPresented s h
    obtain ⟨t, hrun, ht⟩ := ih u hu
    exact ⟨t, (core_run_succ n s u hstep).trans hrun, ht⟩

/-- Settles O7, by induction on the operations: each step decodes the next encoding back and performs it. -/
theorem runPerformsOperationsInOrder : Obligations.RunPerformsOperationsInOrder := by
  intro is rest
  induction is with
  | nil =>
    rintro s - hin
    rw [List.map_nil, List.nil_append] at hin
    rw [← hin]; rfl
  | cons i is ih =>
    intro s hwf hin
    obtain ⟨hi, his⟩ := List.forall_mem_cons.1 hwf
    have hd := decodeEncodeRoundTrip i hi
    have hstep := (step_of_issue s _ (encode i) i hin hd).trans (exec_eq i _)
    rw [List.length_cons, core_run_succ _ _ _ hstep, ih _ his rfl, execAll_cons i is _ _ (exec_eq i _)]
    rfl

end Sys2Proof.Machine
end

section
/-! The laws of the checksum (40_crc.md R65). -/

namespace Sys2Proof.Machine

/-- A leading zero leaves the register at 0. -/
theorem crc8_zero_cons (m : Bytes) : crc8 (0#8 :: m) = crc8 m := by
  rw [crc8_eq_foldl, crc8_eq_foldl, List.foldl_cons, crcStep_zero_zero]

theorem crc8_zeros (n : Nat) : crc8 (List.replicate n 0#8) = 0#8 := by
  induction n with
  | zero => rfl
  | succ n ih => rw [List.replicate_succ, crc8_zero_cons, ih]

/-- Settles O30. -/
theorem leadingZerosInvisible : Obligations.LeadingZerosInvisible :=
  ⟨crc8_nil, crc8_zero_cons, crc8_zeros⟩

/-- From two registers, two sequences of one length: their XOR goes from the XOR of the registers to that of the
ends. -/
theorem foldl_crcStep_xor (a b : Bytes) (c d : Byte) (h : a.length = b.length) :
    (List.zipWith (· ^^^ ·) a b).foldl crcStep (c ^^^ d) = a.foldl crcStep c ^^^ b.foldl crcStep d := by
  induction a generalizing b c d with
  | nil =>
    obtain rfl := List.eq_nil_of_length_eq_zero h.symm
    rfl
  | cons x a ih =>
    match b, h with
    | y :: b, h =>
      rw [List.zipWith_cons_cons, List.foldl_cons, List.foldl_cons, List.foldl_cons, crcStep_xor,
        ih b _ _ (Nat.succ.inj h)]

/-- Settles O31: both registers start at 0, and so does their XOR. -/
theorem checksumIsLinear : Obligations.ChecksumIsLinear := by
  intro a b h
  rw [crc8_eq_foldl, crc8_eq_foldl, crc8_eq_foldl]
  exact foldl_crcStep_xor a b 0#8 0#8 h

/-- Settles O32: the last byte step finds register and byte equal. -/
theorem checksumResidueIsZero : Obligations.ChecksumResidueIsZero := by
  intro m
  rw [crc8_append_singleton, crcStep_self]
  rfl

/-- Settles O33: a flipped bit is another byte in the same place. -/
theorem singleBitChangesChecksum : Obligations.SingleBitChangesChecksum := crc8_flipBit_ne

end Sys2Proof.Machine
end

section
/-! Runs of instructions unit by unit: each unit sees only the operations that write it (20_memory.md R39 and R40,
40_crc.md R70). -/

namespace Sys2Proof.Machine

/-- `s` after a list of instructions. -/
def State.afterAll (s : State) (is : List Instr) : State := is.foldl State.after s

@[simp] theorem State.afterAll_nil (s : State) : s.afterAll [] = s := rfl
@[simp] theorem State.afterAll_cons (s : State) (i : Instr) (is : List Instr) :
    s.afterAll (i :: is) = (s.after i).afterAll is := rfl

theorem State.afterAll_append (s : State) (is js : List Instr) :
    s.afterAll (is ++ js) = (s.afterAll is).afterAll js := List.foldl_append

/-- Every run completes. -/
theorem execAll_eq (is : List Instr) (s : State) : execAll is s = .next (s.afterAll is) := by
  induction is generalizing s with
  | nil => rfl
  | cons i is ih => rw [execAll_cons i is _ _ (exec_eq i s), ih, State.afterAll_cons]

/-- A unit of the state that every instruction updates from its own value, and that only the instructions in `writes`
change, ends a run as the writes alone leave it. -/
theorem unit_afterAll {α : Type} (unit : State → α) (update : α → Instr → α) (writes : Instr → Bool)
    (hafter : ∀ s i, unit (s.after i) = update (unit s) i) (hkeep : ∀ a i, writes i = false → update a i = a)
    (s : State) (is : List Instr) : unit (s.afterAll is) = (is.filter writes).foldl update (unit s) := by
  induction is generalizing s with
  | nil => rfl
  | cons i is ih =>
    rw [State.afterAll_cons, ih, hafter]
    cases hw : writes i with
    | true => rw [List.filter_cons_of_pos hw, List.foldl_cons]
    | false => rw [List.filter_cons_of_neg (Bool.eq_false_iff.1 hw), hkeep _ i hw]

theorem State.afterAll_crc (s : State) (is : List Instr) : (s.afterAll is).crc =
    (is.filter fun i => (access i).writesCrc).foldl (fun c i => (effect i).crc c) s.crc :=
  unit_afterAll State.crc _ _ State.after_crc (fun c i h => by rw [effect_crc_of_not_writes h, id]) s is

theorem State.afterAll_rx (s : State) (is : List Instr) : (s.afterAll is).rx =
    (is.filter fun i => (access i).writesRx).foldl (fun x i => (effect i).rx x) s.rx :=
  unit_afterAll State.rx _ _ State.after_rx (fun x i h => by rw [effect_rx_of_not_writes h, id]) s is

theorem State.afterAll_tx (s : State) (is : List Instr) : (s.afterAll is).tx =
    (is.filter fun i => (access i).emits).foldl (fun tx i => tx ++ (effect i).emitted) s.tx :=
  unit_afterAll State.tx _ _ State.after_tx
    (fun tx i h => by rw [effect_emitted_of_not_emits h, List.append_nil]) s is

/-- Settles O9: at the end of a run each unit depends on the operations that write it and on nothing else. -/
theorem unitsAreIndependentUnderInterleaving : Obligations.UnitsAreIndependentUnderInterleaving := by
  intro is is' s t t' ht ht'
  obtain rfl : s.afterAll is = t := Host.Outcome.next.inj ((execAll_eq is s).symm.trans ht)
  obtain rfl : s.afterAll is' = t' := Host.Outcome.next.inj ((execAll_eq is' s).symm.trans ht')
  refine ⟨fun h => ?_, fun h => ?_, fun h => ?_⟩
  · rw [State.afterAll_crc, h, State.afterAll_crc]
  · rw [← State.rx_eq_iff, State.afterAll_rx, h, State.afterAll_rx]
  · rw [State.afterAll_tx, h, State.afterAll_tx]

/-- The register after the bytes of `m` by CRC_UPDATE, whatever else is between them. -/
theorem State.afterAll_crc_of_updates (s : State) (is : List Instr) (m : Bytes)
    (h : is.filter (fun i => (access i).writesCrc) = crcBytes m) :
    (s.afterAll is).crc = m.foldl crcStep s.crc := by
  rw [State.afterAll_crc, h, crcBytes, List.foldl_map]
  rfl

/-- Settles O34: CRC_INIT starts the register where `crc8` starts. -/
theorem incrementalAgreesWithPure : Obligations.IncrementalAgreesWithPure := by
  intro m is s h
  have hcrc : ((s.after .crcInit).afterAll is).crc = crc8 m := by
    rw [State.afterAll_crc_of_updates _ is m h, crc8_eq_foldl]
    rfl
  refine ⟨(((s.after .crcInit).afterAll is).after .crcRead), ?_, ?_⟩
  · rw [execAll_eq, State.afterAll_append, State.afterAll_append]
    rfl
  · rw [State.after_responses, List.getLast?_concat, ← hcrc]
    rfl

end Sys2Proof.Machine
end

section
/-! The receive assembler's invariant (10_state.md R20) and the buffers it completes (43_rx_assembler.md R87). -/

namespace Sys2Proof.Machine

theorem State.rxOk_iff_of_hunt {s : State} (h : s.rxState = .hunt) : s.RxOk ↔ s.rxBuf = [] := by
  rw [State.RxOk, h]

theorem State.rxOk_iff_of_collect {s : State} (h : s.rxState = .collect) : s.RxOk ↔
    s.rxBuf[0]? = some Config.sof ∧ ∀ len, s.rxBuf[4]? = some len → s.rxBuf.length < frameLength len := by
  rw [State.RxOk, h]

/-- The invariant speaks of the assembler alone. -/
theorem State.rxOk_congr {s t : State} (h : s.rx = t.rx) : s.RxOk ↔ t.RxOk := by
  obtain ⟨hmode, hbuf⟩ := State.rx_eq_iff.1 h
  rw [State.RxOk, State.RxOk, hmode, hbuf]

theorem State.reset_rxOk : State.reset.RxOk := rfl

section
variable {s : State} (b : Byte) (h : s.RxOk) (hs : s.rxState = .collect)
include h hs

/-- The start byte stays first while bytes are added. -/
theorem State.RxOk.getElem?_zero_append : (s.rxBuf ++ [b])[0]? = some Config.sof := by
  obtain ⟨hsof, -⟩ := (State.rxOk_iff_of_collect hs).1 h
  obtain ⟨hlt, -⟩ := List.getElem?_eq_some_iff.1 hsof
  rw [List.getElem?_append_left hlt, hsof]

/-- One more byte reaches the declared length at most. -/
theorem State.RxOk.length_append_le {len : Byte} (hlen : (s.rxBuf ++ [b])[4]? = some len) :
    (s.rxBuf ++ [b]).length ≤ frameLength len := by
  obtain ⟨-, hopen⟩ := (State.rxOk_iff_of_collect hs).1 h
  rw [List.length_append, List.length_singleton]
  obtain h4 | h4 := lt_or_ge 4 s.rxBuf.length
  · rw [List.getElem?_append_left h4] at hlen
    exact hopen len hlen
  · rw [frameLength, frameOverhead_eq]
    omega

end

/-- What R87 says of a completed buffer. -/
def CompleteOk (buf : Bytes) : Prop :=
  buf[0]? = some Config.sof ∧ (∃ len, buf[4]? = some len ∧ buf.length = frameLength len) ∧
    Config.minFrame ≤ buf.length ∧ buf.length ≤ Config.maxFrame

theorem State.completesOk_iff (s : State) :
    s.CompletesOk ↔ ∀ buf, Response.complete buf ∈ s.responses → CompleteOk buf := Iff.rfl

theorem State.RxOk.completeOk {s : State} {b : Byte} (h : s.RxOk) (hs : s.rxState = .collect)
    (hd : frameDone (s.rxBuf ++ [b]) = true) : CompleteOk (s.rxBuf ++ [b]) := by
  obtain ⟨len, hlen, hn⟩ := (frameDone_iff _).1 hd
  refine ⟨h.getElem?_zero_append b hs, ⟨len, hlen, hn⟩, ?_, ?_⟩
  · rw [hn, minFrame_eq]
    exact Nat.le_add_left ..
  · have := len.isLt
    rw [hn, Config.maxFrame, maxPayload_eq, frameOverhead_eq]
    omega

theorem State.after_rxByte (b : Byte) (s : State) : s.after (.rxByte b) = receiveByte b s :=
  (exec_eq_next_iff.1 rfl).symm

theorem receiveByte_rxOk (b : Byte) {s : State} (h : s.RxOk) : (receiveByte b s).RxOk := by
  obtain ⟨hs, hb, e⟩ | ⟨hs, hb, e⟩ | ⟨hs, hd, e⟩ | ⟨hs, hd, e⟩ := receiveByte_cases b s <;> rw [e]
  · exact ⟨congrArg some hb, nofun⟩
  · exact h
  · exact rfl
  · refine ⟨h.getElem?_zero_append b hs, fun len hlen =>
      lt_of_le_of_ne (h.length_append_le b hs hlen) fun hn => ?_⟩
    have hdone := (frameDone_iff (s.rxBuf ++ [b])).2 ⟨len, hlen, hn⟩
    exact Bool.false_ne_true (hd.symm.trans hdone)

/-- Every instruction keeps the assembler's invariant: only RX_BYTE and RX_FLUSH write the assembler. -/
theorem State.after_rxOk {s : State} (i : Instr) (h : s.RxOk) : (s.after i).RxOk := by
  cases hw : (access i).writesRx with
  | false => exact (State.rxOk_congr (by rw [State.after_rx, effect_rx_of_not_writes hw, id])).2 h
  | true =>
    cases i with
    | rxByte b => rw [State.after_rxByte]; exact receiveByte_rxOk b h
    | rxFlush => rfl
    | _ => cases hw

/-- What every instruction keeps, the link's reading too, and what says nothing of the events to come, every step
keeps. -/
theorem step_keeps {P : State → Prop} (hafter : ∀ s i, P s → P (s.after i))
    (hinbox : ∀ (s : State) (rest : List Event), P s → P { s with inbox := rest })
    (htake : ∀ s : State, P s → P s.takeTx) {s t : State} (h : P s) (hstep : step s = .next t) : P t := by
  obtain ⟨-, rfl⟩ | ⟨rest, -, rfl⟩ | ⟨r, rest, i, -, -, hexec⟩ := step_cases s t hstep
  · exact h
  · exact htake _ (hinbox s rest h)
  · obtain rfl := exec_eq_next_iff.1 hexec
    exact hafter _ i (hinbox s rest h)

theorem State.takeTx_rxOk {s : State} (h : s.RxOk) : s.takeTx.RxOk :=
  (State.rxOk_congr (State.rx_eq_iff.2 ⟨State.takeTx_rxState s, State.takeTx_rxBuf s⟩)).2 h

theorem State.RxOk.length_le {s : State} (h : s.RxOk) : s.rxBuf.length ≤ 262 := by
  cases hs : s.rxState with
  | hunt => rw [(State.rxOk_iff_of_hunt hs).1 h]; decide
  | collect =>
    obtain ⟨-, hopen⟩ := (State.rxOk_iff_of_collect hs).1 h
    cases hlen : s.rxBuf[4]? with
    | none => have := List.getElem?_eq_none_iff.1 hlen; omega
    | some len =>
      have := hopen len hlen
      have := len.isLt
      rw [frameLength, frameOverhead_eq] at *
      omega

/-- With 262 bytes the assembler waits for the last byte of the longest frame. -/
theorem State.RxOk.of_length_eq {s : State} (h : s.RxOk) (hn : s.rxBuf.length = 262) :
    s.rxState = .collect ∧ s.rxBuf[4]? = some 0xFF#8 := by
  cases hs : s.rxState with
  | hunt => rw [(State.rxOk_iff_of_hunt hs).1 h] at hn; cases hn
  | collect =>
    obtain ⟨-, hopen⟩ := (State.rxOk_iff_of_collect hs).1 h
    cases hlen : s.rxBuf[4]? with
    | none => have := List.getElem?_eq_none_iff.1 hlen; omega
    | some len =>
      have hlt := hopen len hlen
      have := len.isLt
      rw [frameLength, frameOverhead_eq] at hlt
      refine ⟨rfl, congrArg some (BitVec.eq_of_toNat_eq ?_)⟩
      rw [BitVec.toNat_ofNat]
      omega

theorem step_rxOk {s t : State} : s.RxOk → step s = .next t → t.RxOk :=
  step_keeps (P := State.RxOk) (fun _ i => State.after_rxOk i) (fun _ _ h => h) (fun _ => State.takeTx_rxOk)

/-- Settles O10. -/
theorem assemblerInvariantKept : Obligations.AssemblerInvariantKept := by
  refine ⟨State.reset_rxOk, fun s t => step_rxOk, fun s h => ⟨fun hs => ?_, fun hs => ?_, h.length_le⟩,
    fun s b h hn => ?_⟩
  · exact (State.rxOk_iff_of_hunt hs).1 h
  · obtain ⟨hsof, hopen⟩ := (State.rxOk_iff_of_collect hs).1 h
    obtain ⟨hpos, -⟩ := List.getElem?_eq_some_iff.1 hsof
    exact ⟨hpos, hsof, fun len hlen => (frameLength_eq_zext16 len).symm ▸ hopen len hlen⟩
  · obtain ⟨hs, hlen⟩ := h.of_length_eq hn
    refine ⟨hlen, exec_rxByte_last b s hs ((frameDone_iff _).2 ⟨0xFF#8, ?_, ?_⟩)⟩
    · rw [List.getElem?_append_left (by omega), hlen]
    · rw [List.length_append, hn]; rfl

/-- Whether a response carries no frame, no Frame record and no buffer. -/
def Response.plain : Response → Bool
  | .ok (.bytes _) | .ok (.frame _) | .complete _ => false
  | .ok .unit | .ok (.byte _) | .ok (.count _) | .err _ | .discarded | .pending => true

theorem rxTake_cases (b : Byte) (x : Rx) :
    (x.1 = .collect ∧ frameDone (x.2 ++ [b]) = true ∧ (rxTake b x).2 = .complete (x.2 ++ [b])) ∨
    (rxTake b x).2.plain = true := by
  rw [rxTake.eq_def]
  split <;> split
  · exact .inr rfl
  · exact .inr rfl
  · exact .inl ⟨rfl, ‹_›, rfl⟩
  · exact .inr rfl

/-- A response is a frame sent (and emitted), a Frame record that a buffer parses to, the buffer that RX_BYTE completes,
or carries none of these. -/
theorem State.response_cases (s : State) (i : Instr) :
    (∃ dst src cmd p, p.length ≤ 255 ∧ (effect i).emitted = buildFrame dst src cmd p ∧
      s.response i = .ok (.bytes (buildFrame dst src cmd p))) ∨
    ((effect i).emitted = [] ∧
      ((∃ buf f, parseFrame buf = .ok f ∧ s.response i = .ok (.frame f)) ∨
        (∃ b, s.rxState = .collect ∧ frameDone (s.rxBuf ++ [b]) = true ∧
          s.response i = .complete (s.rxBuf ++ [b])) ∨
        (s.response i).plain = true)) := by
  obtain hsilent | ⟨-, dst, src, cmd, p, heff⟩ := effect_send_or_silent i
  · refine .inr ⟨effect_emitted_of_not_emits hsilent, ?_⟩
    cases i with
    | decode buf =>
      rw [State.response, effect]
      cases hf : parseFrame buf with
      | ok f => exact .inl ⟨buf, f, hf, rfl⟩
      | error e => exact .inr (.inr rfl)
    | respCheck dst src cmd rsp =>
      rw [State.response, effect]
      cases matchResponse dst src cmd rsp <;> exact .inr (.inr rfl)
    | rxByte b => exact .inr ((rxTake_cases b s.rx).imp_left fun h => ⟨b, h⟩)
    | crcInit | crcUpdate | crcRead | crcCompute | rxFlush => exact .inr (.inr rfl)
    | _ => cases hsilent
  · rw [State.response, heff]
    obtain ⟨hp, hemit, hr⟩ | ⟨-, hemit, hr⟩ := sendEffect_cases dst src cmd p
    · exact .inl ⟨dst, src, cmd, p, hp, hemit, hr ..⟩
    · exact .inr ⟨hemit, .inr (.inr (by rw [hr]; rfl))⟩

/-- Under the assembler's invariant a buffer answered is a completed frame's. -/
theorem State.completeOk_of_response {s : State} {i : Instr} {buf : Bytes} (hrx : s.RxOk)
    (h : s.response i = .complete buf) : CompleteOk buf := by
  obtain ⟨_, _, _, _, -, -, e⟩ | ⟨-, ⟨_, _, -, e⟩ | ⟨b, hs, hd, e⟩ | e⟩ := s.response_cases i
  all_goals rw [h] at e; cases e
  exact hrx.completeOk hs hd

/-- DECODE of a completed buffer: the start byte and the length are right, so three checks are left to fail (R87). -/
theorem parseFrame_of_completeOk {buf : Bytes} (h : CompleteOk buf) :
    (∃ f, parseFrame buf = .ok f) ∨ (∃ x, parseFrame buf = .error (.malformedFrame (.badEnd x))) ∨
      (∃ x, parseFrame buf = .error (.malformedFrame (.badSeparator x))) ∨
      ∃ x y, parseFrame buf = .error (.checksumMismatch x y) := by
  obtain ⟨hsof, ⟨len, hlen, hn⟩, hmin, -⟩ := h
  obtain ⟨b0, b1, b2, b3, b4, mid, e2, e1, e0, rfl⟩ := split_buffer buf hmin
  obtain rfl : b0 = Config.sof := Option.some.inj hsof
  obtain rfl : b4 = len := Option.some.inj hlen
  have hmid : b4.toNat = mid.length := by
    rw [split_length, frameLength, frameOverhead_eq] at hn
    omega
  rw [parseFrame_split, if_neg (not_not.2 rfl)]
  split
  · exact .inr (.inl ⟨_, rfl⟩)
  split
  · exact .inr (.inr (.inl ⟨_, rfl⟩))
  split
  · exact .inr (.inr (.inr ⟨_, _, rfl⟩))
  rw [if_neg (not_not.2 hmid)]
  exact .inl ⟨_, rfl⟩

/-- Settles O52. -/
theorem completedBufferShape : Obligations.CompletedBufferShape := by
  intro b s t buf hrx hexec hresp
  obtain rfl := exec_eq_next_iff.1 hexec
  have hok := State.completeOk_of_response hrx (State.after_responses_eq_iff.1 hresp)
  have hdecode := parseFrame_of_completeOk hok
  obtain ⟨hsof, ⟨len, hlen, hn⟩, hmin, hmax⟩ := hok
  refine ⟨⟨len, hlen, hn.trans (frameLength_eq_zext16 len).symm⟩, hsof, hmin, hmax, fun u => ?_⟩
  refine ⟨_, exec_decode buf u, ?_⟩
  obtain ⟨f, e⟩ | ⟨x, e⟩ | ⟨x, e⟩ | ⟨x, y, e⟩ := hdecode <;> rw [e]
  · exact .inl ⟨f, rfl⟩
  · exact .inr (.inl ⟨x, rfl⟩)
  · exact .inr (.inr (.inl ⟨x, rfl⟩))
  · exact .inr (.inr (.inr ⟨x, y, rfl⟩))

end Sys2Proof.Machine
end

section
/-! The whole invariant along every run: the assembler, the transmit stream as the frames answered (20_memory.md R41),
the completed buffers and the Frame records. -/

namespace Sys2Proof.Machine

/-- A Frame record answered was parsed, so it has a payload of at most 255 bytes (00_scope.md R13). -/
theorem State.payload_le_of_response {s : State} {i : Instr} {f : Frame} (h : s.response i = .ok (.frame f)) :
    f.payload.length ≤ 255 := by
  obtain ⟨_, _, _, _, -, -, e⟩ | ⟨-, ⟨buf, _, hf, e⟩ | ⟨_, -, -, e⟩ | e⟩ := s.response_cases i
  all_goals rw [h] at e; cases e
  obtain ⟨-, hp, -⟩ := parseFrame_ok buf f hf
  exact hp

theorem framesSent_append (rs rs' : List Response) : framesSent (rs ++ rs') = framesSent rs ++ framesSent rs' :=
  List.filterMap_append

theorem framesSent_of_plain {r : Response} (h : r.plain = true) : framesSent [r] = [] := by
  match r, h with
  | .ok .unit, _ | .ok (.byte _), _ | .ok (.count _), _ | .err _, _ | .discarded, _ | .pending, _ => rfl

/-- What is answered as a frame is what is emitted, and a whole wire frame. -/
theorem State.framesSent_response (s : State) (i : Instr) :
    (framesSent [s.response i]).flatten = (effect i).emitted ∧
    ∀ f ∈ framesSent [s.response i], ∃ dst src cmd p, p.length ≤ 255 ∧ f = buildFrame dst src cmd p := by
  obtain ⟨dst, src, cmd, p, hp, he, e⟩ | ⟨he, ⟨_, _, -, e⟩ | ⟨_, -, -, e⟩ | e⟩ := s.response_cases i
  · rw [he, e]
    exact ⟨List.append_nil _, fun f hf => ⟨dst, src, cmd, p, hp, List.mem_singleton.1 hf⟩⟩
  · rw [he, e]; exact ⟨rfl, nofun⟩
  · rw [he, e]; exact ⟨rfl, nofun⟩
  · rw [he, framesSent_of_plain e]; exact ⟨rfl, nofun⟩

theorem State.after_txOk {s : State} (i : Instr) (h : s.TxOk) : (s.after i).TxOk := by
  obtain ⟨htx, hlayout, htaken⟩ := h
  obtain ⟨hemit, hframe⟩ := s.framesSent_response i
  refine ⟨?_, fun f hf => ?_, ?_⟩
  · rw [State.after_tx, State.after_responses, framesSent_append, List.flatten_append, hemit, htx]
  · rw [State.after_responses, framesSent_append, List.mem_append] at hf
    exact hf.elim (hlayout f) (hframe f)
  · rw [State.after_tx, List.length_append]
    exact Nat.le_add_right_of_le htaken

theorem State.after_inv {s : State} (i : Instr) (h : s.Inv) : (s.after i).Inv := by
  obtain ⟨hrx, htx, hcompletes, hframes⟩ := h
  rw [State.completesOk_iff] at hcompletes
  have hlog {r : Response} (hr : r ∈ (s.after i).responses) : r ∈ s.responses ∨ s.response i = r := by
    rw [State.after_responses, List.mem_append, List.mem_singleton] at hr
    exact hr.imp_right Eq.symm
  exact ⟨State.after_rxOk i hrx, State.after_txOk i htx,
    fun buf hbuf => (hlog hbuf).elim (hcompletes buf) (State.completeOk_of_response hrx),
    fun f hf => (hlog hf).elim (hframes f) State.payload_le_of_response⟩

theorem State.takeTx_inv {s : State} (h : s.Inv) : s.takeTx.Inv := by
  obtain ⟨hrx, ⟨htx, hlayout, htaken⟩, hcompletes, hframes⟩ := h
  rw [State.Inv, State.TxOk, State.CompletesOk, State.FramesOk, State.takeTx_responses, State.takeTx_tx]
  exact ⟨State.takeTx_rxOk hrx, ⟨htx, hlayout, State.takeTx_txTaken_le s htaken⟩, hcompletes, hframes⟩

/-- Settles O11. -/
theorem stepKeepsInvariant : Obligations.StepKeepsInvariant := fun _ _ =>
  step_keeps (P := State.Inv) (fun _ i => State.after_inv i) (fun _ _ h => h) (fun _ => State.takeTx_inv)

/-- Settles O12: nothing has been answered, sent or received. -/
theorem resetMeetsInvariant : Obligations.ResetMeetsInvariant :=
  ⟨State.reset_rxOk, ⟨rfl, nofun, Nat.le_refl 0⟩, nofun, nofun⟩

/-- What every step keeps holds at the end of every run. -/
theorem run_keeps {P : State → Prop} (hstep : ∀ s t, P s → step s = .next t → P t) (n : Nat) (s t : State)
    (h : P s) (hrun : Host.Core.run Sys2Proof.core n s = .next t) : P t := by
  induction n generalizing s with
  | zero => cases hrun; exact h
  | succ n ih =>
    cases hs : step s with
    | next u => rw [core_run_succ n s u hs] at hrun; exact ih u (hstep s u h hs) hrun
    | fault r => cases r
    | refused r =>
      have hrefused : Sys2Proof.core.step s = .refused r := hs
      simp [Host.Core.run, hrefused] at hrun

/-- The log of responses only grows. -/
theorem run_responses_prefix (n : Nat) (s t : State) (hrun : Host.Core.run Sys2Proof.core n s = .next t) :
    s.responses <+: t.responses :=
  run_keeps (P := fun u => s.responses <+: u.responses)
    (fun _ _ => step_keeps (P := fun u => s.responses <+: u.responses)
      (fun _ _ h => h.trans (List.prefix_append ..)) (fun _ _ h => h)
      (fun u h => (State.takeTx_responses u).symm ▸ h))
    n s t (List.prefix_refl _) hrun

/-- Settles O13: the invariant at both ends of the run, between which the log of responses has grown. -/
theorem wireOrderIsSendOrder : Obligations.WireOrderIsSendOrder := by
  intro n s t h hrun
  obtain ⟨-, ⟨htx, -, -⟩, -, -⟩ := id h
  obtain ⟨-, ⟨htx', hlayout, -⟩, -, -⟩ := run_keeps stepKeepsInvariant n s t h hrun
  obtain ⟨later, hlater⟩ := run_responses_prefix n s t hrun
  refine ⟨htx', ⟨later, hlater.symm, ?_⟩, hlayout⟩
  rw [htx', ← hlater, framesSent_append, List.flatten_append, ← htx]

end Sys2Proof.Machine
end

section
/-! The catalog commands, which send their request as ENCODE sends a frame (44_command_catalog.md R89 to R95). -/

namespace Sys2Proof.Machine

section
variable (c : Command) (dst src : Byte) (p : Bytes) (s : State)

theorem exec_commandInstr_of_le (h : p.length ≤ 255) :
    exec (commandInstr c dst src p) s = .next (Claims.sent dst src (cmdId c) p s) := by
  rw [exec_commandInstr, sendCommand, sendFrame_of_le dst src (cmdId c) p s h]

theorem exec_commandInstr_of_lt (h : 255 < p.length) :
    exec (commandInstr c dst src p) s = .next (Claims.answered s (.err (.encodeError p.length))) := by
  rw [exec_commandInstr, sendCommand, sendFrame_of_lt dst src (cmdId c) p s h]

theorem access_commandInstr : access (commandInstr c dst src p) = { emits := true } := by cases c <;> rfl

end

/-- Settles O40, one command at a time. -/
theorem commandsSendRequestFrame : Obligations.CommandsSendRequestFrame := by
  intro dst src p s h
  have hsent (c : Command) := exec_commandInstr_of_le c dst src p s h
  exact ⟨hsent .whoAmI, hsent .getTemperature, hsent .getDipoleMoment, hsent .setDipoleMomentSetpoint, hsent .start,
    hsent .stop, hsent .getStatus⟩

/-- Settles O41, one command at a time. -/
theorem commandsRejectLongPayload : Obligations.CommandsRejectLongPayload := by
  intro dst src p s h
  have hraised (c : Command) := exec_commandInstr_of_lt c dst src p s h
  exact ⟨hraised .whoAmI, hraised .getTemperature, hraised .getDipoleMoment, hraised .setDipoleMomentSetpoint,
    hraised .start, hraised .stop, hraised .getStatus⟩

end Sys2Proof.Machine
end

section
/-! The last check of DECODE (42_frame_decoder.md R80), and an echo at RESP_CHECK (70_reset_and_hazards.md R124). -/

namespace Sys2Proof.Machine

open Claims

theorem exec_decode_eq_err_iff (buf : Bytes) (e : BlockError) (s : State) :
    exec (.decode buf) s = .next (answered s (.err e)) ↔ parseFrame buf = .error e := by
  rw [exec_decode, Host.Outcome.next.injEq, answered_inj, responseOf_eq_err_iff]

/-- A check that raises another error than `e'` has to pass for `e'` to be raised. -/
theorem check_eq_error_iff {α : Type} {p : Prop} [Decidable p] {e e' : BlockError} {r : Except BlockError α}
    (h : e ≠ e') : (if ¬p then .error e else r) = .error e' ↔ p ∧ r = .error e' := by
  by_cases hp : p <;> simp [hp, h]

/-- On a buffer by its parts: every check before the last passes, and the last fails. -/
theorem parseFrame_split_eq_lengthMismatch_iff (b0 b1 b2 b3 b4 e2 e1 e0 declared : Byte) (mid : Bytes) (actual : Nat) :
    parseFrame ([b0, b1, b2, b3, b4] ++ mid ++ [e2, e1, e0]) = .error (.lengthMismatch declared actual) ↔
      b0 = Config.sof ∧ e0 = Config.eof ∧ e2 = Config.sep ∧ crc8 ([b1, b2, b3, b4] ++ mid) = e1 ∧
        b4 = declared ∧ actual = mid.length ∧ declared.toNat ≠ actual := by
  rw [parseFrame_split]
  simp only [ne_eq, check_eq_error_iff, reduceCtorEq, not_false_eq_true]
  refine and_congr_right' <| and_congr_right' <| and_congr_right' <| and_congr_right' ?_
  by_cases hL : b4.toNat = mid.length
  · rw [if_neg (not_not.2 hL)]
    refine ⟨nofun, ?_⟩
    rintro ⟨rfl, rfl, hne⟩
    exact absurd hL hne
  · rw [if_pos hL]
    constructor
    · rintro ⟨⟩
      exact ⟨rfl, rfl, hL⟩
    · rintro ⟨rfl, rfl, -⟩
      rfl

/-- Settles O45, on a buffer by its parts. -/
theorem lengthMismatchExactlyWhen : Obligations.LengthMismatchExactlyWhen := by
  intro buf s declared actual
  rw [exec_decode_eq_err_iff]
  obtain hshort | hlong := lt_or_ge buf.length 8
  · rw [parseFrame_short buf hshort]
    exact ⟨nofun, fun ⟨h8, _⟩ => absurd h8 (Nat.not_le.2 hshort)⟩
  · obtain ⟨b0, b1, b2, b3, b4, mid, e2, e1, e0, rfl⟩ := split_buffer buf hlong
    have hstop := split_getElem?_stop b0 b1 b2 b3 b4 e2 e1 e0 mid
    have hsum := split_getElem?_checksum b0 b1 b2 b3 b4 e2 e1 e0 mid
    have hsep := split_getElem?_sep b0 b1 b2 b3 b4 e2 e1 e0 mid
    rw [parseFrame_split_eq_lengthMismatch_iff, split_length, Nat.add_sub_cancel,
      show mid.length + 8 - 1 = mid.length + 7 from rfl, show mid.length + 8 - 2 = mid.length + 6 from rfl,
      show mid.length + 8 - 3 = mid.length + 5 from rfl, show mid.length + 8 - 4 = mid.length + 4 from rfl,
      hstop, hsum, hsep, split_body]
    simp only [Option.some.injEq]
    constructor
    · rintro ⟨h0, hE, hS, hC, h4, hlen⟩
      exact ⟨Nat.le_add_left .., congrArg some h0, hE, hS, hC.symm, congrArg some h4, hlen⟩
    · rintro ⟨-, h0, hE, hS, hC, h4, hlen⟩
      exact ⟨Option.some.inj h0, hE, hS, hC.symm, Option.some.inj h4, hlen⟩

/-- Settles O49: the echo is decoded, and its destination is the first thing compared. -/
theorem echoPassesOnlyEqualAddresses : Obligations.EchoPassesOnlyEqualAddresses := by
  intro dst src cmd p s hp
  refine ⟨_, parseFrame_buildFrame dst src cmd p hp, fun h => ?_, fun h => ?_⟩
  · rw [exec_respCheck_eq_ok_iff, matchResponse, if_neg (not_not.2 h), if_neg (not_not.2 h.symm),
      if_neg (not_not.2 rfl)]
  · rw [exec_respCheck, matchResponse, if_pos h]
    rfl

end Sys2Proof.Machine
end

section
/-! Junk before a frame, and a flipped LEN bit, at the assembler (43_rx_assembler.md R88, 70_reset_and_hazards.md R121
to R123). -/

namespace Sys2Proof.Machine

open Claims

/-- In HUNT every byte that is not SOF is discarded. -/
theorem execAll_rxStream_junk (junk : Bytes) (s : State) (hs : s.rxState = .hunt)
    (hjunk : ∀ b ∈ junk, b ≠ Config.sof) :
    execAll (rxStream junk) s
      = .next { s with responses := s.responses ++ List.replicate junk.length .discarded } := by
  induction junk generalizing s with
  | nil => simp [rxStream]
  | cons b junk ih =>
    obtain ⟨hb, hrest⟩ := List.forall_mem_cons.1 hjunk
    refine (execAll_cons _ _ _ _ (exec_rxByte_junk b s hs hb)).trans ?_
    refine (ih (answered s .discarded) hs hrest).trans ?_
    simp [answered, List.replicate_succ]

/-- Settles O54: the flush goes to HUNT, the junk stays there, and the frame is collected. -/
theorem flushAndJunkThenFrame : Obligations.FlushAndJunkThenFrame := by
  intro dst src cmd p junk s hp hjunk
  rw [wireFrame_eq_buildFrame, List.append_assoc, List.singleton_append, execAll_cons _ _ _ _ (exec_rxFlush s),
    execAll_append _ _ _ _ (execAll_rxStream_junk junk (flushRx s) rfl hjunk),
    execAll_rxStream_buildFrame dst src cmd p _ rfl hp]
  rfl

/-- The log of responses only grows. -/
theorem State.responses_prefix_afterAll (s : State) (is : List Instr) : s.responses <+: (s.afterAll is).responses := by
  induction is generalizing s with
  | nil => exact List.prefix_refl _
  | cons i is ih => exact (List.prefix_append ..).trans (ih (s.after i))

/-- A frame is complete with its last byte, whatever comes after it. -/
theorem execAll_rxStream_buildFrame_append (dst src cmd : Byte) (p rest : Bytes) (s : State) (hs : s.rxState = .hunt)
    (hp : p.length ≤ 255) : ∃ t, execAll (rxStream (buildFrame dst src cmd p ++ rest)) s = .next t ∧
      Response.complete (buildFrame dst src cmd p) ∈ t.responses := by
  rw [rxStream_append, execAll_append _ _ _ _ (execAll_rxStream_buildFrame dst src cmd p s hs hp)]
  exact ⟨_, execAll_eq .., (State.responses_prefix_afterAll ..).subset (List.mem_append_right _ List.mem_cons_self)⟩

/-- A payload that starts with the end of the frame without one: with bit 2 of LEN = 4 flipped, that shorter frame
stands at the front, whole and correct. -/
theorem flipBit_len_buildFrame (dst src cmd : Byte) :
    flipBit (buildFrame dst src cmd [Config.sep, crc8 (frameBody dst src cmd []), Config.eof, 0x00]) 4 2
      = buildFrame dst src cmd [] ++ [0x00, Config.sep, crc8 (frameBody dst src cmd
          [Config.sep, crc8 (frameBody dst src cmd []), Config.eof, 0x00]), Config.eof] := by
  have hlen : lenByte 4 ^^^ (1#8 <<< 2) = lenByte 0 := rfl
  change Config.sof :: dst :: src :: cmd :: (lenByte 4 ^^^ (1#8 <<< 2)) :: _ = _
  rw [hlen]
  rfl

/-- Settles O55: what the assembler completes is the shorter frame. -/
theorem lengthFlipDefeatsAssembler : Obligations.LengthFlipDefeatsAssembler := by
  obtain ⟨t, hrun, hcomplete⟩ :=
    execAll_rxStream_buildFrame_append 0x11 0x01 0x10 [] _ State.reset rfl (Nat.zero_le 255)
  rw [← flipBit_len_buildFrame] at hrun
  exact ⟨0x11, 0x01, 0x10, _, 2, t, _, _, by decide, by decide, hrun, hcomplete,
    parseFrame_buildFrame 0x11 0x01 0x10 [] (Nat.zero_le 255), nofun⟩

end Sys2Proof.Machine
end

section
/-! The host's check of a response, and its transactions (70_reset_and_hazards.md R128; the operations as lists are
notes/assumptions 16). -/

namespace Sys2Proof.Machine

open Claims

/-- The last response of a run is the one of its last operation. -/
theorem State.after_getLast? (s : State) (i : Instr) : (s.after i).responses.getLast? = some (s.response i) := by
  rw [State.after_responses, List.getLast?_concat]

theorem responseOf_unit_eq_ok_iff {r : Except BlockError Unit} :
    responseOf (fun _ => .unit) r = .ok .unit ↔ r = .ok () := by
  cases r <;> simp

section
variable (dev host : Address) (cmd : CommandId)

theorem replyAccepted_complete_iff (buf : Bytes) :
    replyAccepted dev host cmd (.complete buf) = true ↔ ∃ rsp, accepted dev host cmd buf = some rsp :=
  Option.isSome_iff_exists

/-- The response side of an attempt ends in Ok(()) exactly when the reply is accepted. -/
theorem replyIssues_getLast?_iff (reply : Reply) (s : State) :
    (s.afterAll (replyIssues dev host cmd reply)).responses.getLast? = some (.ok .unit) ↔
      replyAccepted dev host cmd reply = true := by
  cases reply with
  | deadline =>
    rw [replyIssues_deadline, State.afterAll_cons, State.afterAll_nil, State.after_getLast?]
    exact ⟨nofun, nofun⟩
  | complete buf =>
    simp only [replyAccepted_complete_iff, accepted_eq_some]
    cases hf : parseFrame buf with
    | error e =>
      rw [replyIssues_error _ _ _ _ e hf, State.afterAll_cons, State.afterAll_nil, State.after_getLast?, State.response,
        effect, hf]
      exact ⟨nofun, nofun⟩
    | ok f =>
      rw [replyIssues_ok _ _ _ _ f hf, State.afterAll_cons, State.afterAll_cons, State.afterAll_nil,
        State.after_getLast?, Option.some.injEq, State.response, effect, responseOf_unit_eq_ok_iff]
      exact ⟨fun h => ⟨f, rfl, h⟩, fun ⟨_, hrsp, h⟩ => Except.ok.inj hrsp ▸ h⟩

/-- The response side of an attempt neither writes the CRC register nor emits. -/
theorem access_of_mem_replyIssues (reply : Reply) (i : Instr) (h : i ∈ replyIssues dev host cmd reply) :
    (access i).writesCrc = false ∧ (access i).emits = false := by
  cases reply with
  | deadline =>
    obtain rfl := List.mem_singleton.1 h
    exact ⟨rfl, rfl⟩
  | complete buf =>
    cases hf : parseFrame buf with
    | error e =>
      rw [replyIssues_error _ _ _ _ e hf] at h
      obtain rfl := List.mem_singleton.1 h
      exact ⟨rfl, rfl⟩
    | ok f =>
      rw [replyIssues_ok _ _ _ _ f hf, List.mem_pair] at h
      obtain rfl | rfl := h <;> exact ⟨rfl, rfl⟩

theorem replyIssues_filter_writesCrc (reply : Reply) :
    (replyIssues dev host cmd reply).filter (fun i => (access i).writesCrc) = [] :=
  List.filter_eq_nil_iff.2 fun i hi => Bool.eq_false_iff.1 (access_of_mem_replyIssues dev host cmd reply i hi).1

theorem replyIssues_filter_emits (reply : Reply) :
    (replyIssues dev host cmd reply).filter (fun i => (access i).emits) = [] :=
  List.filter_eq_nil_iff.2 fun i hi => Bool.eq_false_iff.1 (access_of_mem_replyIssues dev host cmd reply i hi).2

end

/-- Settles O48. -/
theorem checkResponseInteraction : Obligations.CheckResponseInteraction := fun dev host cmd buf s =>
  ⟨_, execAll_eq .., (replyIssues_getLast?_iff dev host cmd (.complete buf) s).trans
    (replyAccepted_complete_iff dev host cmd buf)⟩

section
variable (request : Instr) (dev host : Address) (cmd : CommandId)

/-- Of the operations of a transaction, those of a kind that the response side does not hold are the request, for each
attempt up to the first accepted reply. -/
theorem attemptsIssue_filter (p : Instr → Bool)
    (hp : ∀ reply, (replyIssues dev host cmd reply).filter p = []) (replies : List Reply) :
    (attemptsIssue request dev host cmd replies).filter p = (List.replicate
      (min replies.length (replies.findIdx (replyAccepted dev host cmd) + 1)) request).filter p := by
  induction replies with
  | nil => rfl
  | cons reply later ih =>
    rw [attemptsIssue_cons, ← List.singleton_append, List.filter_append, List.filter_append, hp, List.append_nil,
      List.findIdx_cons, List.length_cons]
    cases replyAccepted dev host cmd reply with
    | true => simp
    | false =>
      rw [if_neg Bool.false_ne_true, ih, cond_false, Nat.add_min_add_right, List.replicate_succ, ← List.filter_append]
      rfl

/-- A transaction ends in Ok(()) exactly when some reply is accepted: after such a reply nothing more is issued, and a
reply that is not accepted ends in another response. -/
theorem attemptsIssue_getLast?_iff (reply : Reply) (later : List Reply) (s : State) :
    (s.afterAll (attemptsIssue request dev host cmd (reply :: later))).responses.getLast? = some (.ok .unit) ↔
      ∃ r ∈ reply :: later, replyAccepted dev host cmd r = true := by
  induction later generalizing reply s with
  | nil =>
    rw [attemptsIssue_cons, attemptsIssue_nil, ite_self, List.append_nil, State.afterAll_cons, replyIssues_getLast?_iff]
    simp
  | cons next later ih =>
    rw [attemptsIssue_cons]
    split
    case isTrue h =>
      rw [List.append_nil, State.afterAll_cons, replyIssues_getLast?_iff]
      exact ⟨fun _ => ⟨reply, List.mem_cons_self, h⟩, fun _ => h⟩
    case isFalse h =>
      rw [State.afterAll_append, ih, List.exists_mem_cons_iff _ reply]
      exact (or_iff_right h).symm

end

section
variable (c : Command) (dev host : Address) (p : Bytes) (replies : Replies)

theorem transactionIssues_of_le (h : p.length ≤ 255) : transactionIssues c dev host p replies =
    attemptsIssue (commandInstr c dev host p) dev host (cmdId c) (replies.first :: replies.retries) :=
  if_neg (Nat.not_lt.2 h)

theorem transactionIssues_of_lt (h : 255 < p.length) :
    transactionIssues c dev host p replies = [commandInstr c dev host p] :=
  if_pos h

theorem effect_commandInstr : effect (commandInstr c dev host p) = sendEffect dev host (cmdId c) p := by
  cases c <;> rfl

theorem effect_commandInstr_emitted (h : p.length ≤ 255) :
    (effect (commandInstr c dev host p)).emitted = buildFrame dev host (cmdId c) p := by
  rw [effect_commandInstr, sendEffect, encodeFrame_ok _ _ _ _ h]
  rfl

/-- The commands' transactions leave the register. -/
theorem transactionIssues_afterAll_crc (s : State) (h : p.length ≤ 255) :
    (s.afterAll (transactionIssues c dev host p replies)).crc = s.crc := by
  have hreq : ¬(access (commandInstr c dev host p)).writesCrc = true := by rw [access_commandInstr]; exact nofun
  rw [State.afterAll_crc, transactionIssues_of_le c dev host p replies h,
    attemptsIssue_filter _ _ _ _ _ (replyIssues_filter_writesCrc dev host (cmdId c)),
    List.filter_replicate, if_neg hreq, List.foldl_nil]

/-- The request frame is emitted once for each attempt, up to the first accepted reply. -/
theorem transactionIssues_afterAll_tx (s : State) (h : p.length ≤ 255) :
    (s.afterAll (transactionIssues c dev host p replies)).tx = s.tx ++ (List.replicate
      (min (replies.retries.length + 1)
        ((replies.first :: replies.retries).findIdx (replyAccepted dev host (cmdId c)) + 1))
      (buildFrame dev host (cmdId c) p)).flatten := by
  have hreq : (access (commandInstr c dev host p)).emits = true := by rw [access_commandInstr]
  rw [State.afterAll_tx, transactionIssues_of_le c dev host p replies h,
    attemptsIssue_filter _ _ _ _ _ (replyIssues_filter_emits dev host (cmdId c)), List.filter_replicate, if_pos hreq,
    List.foldl_append_eq_append, List.map_replicate, effect_commandInstr_emitted c dev host p h]
  rfl

/-- A transaction ends in Ok(()) exactly when some reply is a buffer that is accepted. -/
theorem transactionIssues_getLast?_iff (s : State) (h : p.length ≤ 255) :
    (s.afterAll (transactionIssues c dev host p replies)).responses.getLast? = some (.ok .unit) ↔
      ∃ buf rsp, Reply.complete buf ∈ replies.first :: replies.retries ∧
        accepted dev host (cmdId c) buf = some rsp := by
  rw [transactionIssues_of_le c dev host p replies h, attemptsIssue_getLast?_iff]
  constructor
  · rintro ⟨_ | buf, hmem, hacc⟩
    · obtain ⟨rsp, hrsp⟩ := (replyAccepted_complete_iff ..).1 hacc
      exact ⟨_, rsp, hmem, hrsp⟩
    · cases hacc
  · rintro ⟨buf, rsp, hmem, hrsp⟩
    exact ⟨_, hmem, (replyAccepted_complete_iff ..).2 ⟨rsp, hrsp⟩⟩

end

/-- Settles O56. -/
theorem transactionResendsUntilAccepted : Obligations.TransactionResendsUntilAccepted := by
  refine ⟨fun c dev host p replies s h => ⟨s.afterAll (transactionIssues c dev host p replies), execAll_eq ..,
      transactionIssues_afterAll_crc c dev host p replies s h, transactionIssues_afterAll_tx c dev host p replies s h,
      transactionIssues_getLast?_iff c dev host p replies s h⟩,
    fun c dev host p replies s h => ?_, fun dev host replies => ⟨rfl, rfl⟩, fun host probes => List.flatMap_def⟩
  rw [interactionIssues, transactionIssues_of_lt c dev host p replies h]
  exact execAll_cons _ _ _ _ (exec_commandInstr_of_lt c dev host p s h)

end Sys2Proof.Machine
end
